-- ==== Sys2Proof/Word.lean ====
section
/-! DEFINITION. Word.lean: the widths of the hardware's data and addresses (spec/00 R8, R10, R11). -/

namespace Sys2Proof

/-- A byte of either bus, and every processor register but PC (R8). -/
abbrev Byte := BitVec 8

/-- A processor-bus address, and PC (R8). -/
abbrev Word := BitVec 16

/-- The PPU's `v` and `t` (R8). -/
abbrev VramReg := BitVec 15

/-- The index of a PPU register in its window (spec/20 R203). -/
abbrev RegIndex := BitVec 3

end Sys2Proof
end

