-- ==== Sys2Proof/Config.lean ====
section
/-! DEFINITION. Config.lean: the parameters of spec/00 R9 that are fixed for one machine, as plain data, and the one
free value the spec leaves to the host. -/

namespace Sys2Proof

/-- `PRG_BANKS`: one or two 16 KB program banks (R9). -/
inductive PrgBanks
  | one
  | two
  deriving DecidableEq, Repr

/-- `MIRRORING` (R9; spec/20 R241). -/
inductive Mirroring
  | horizontal
  | vertical
  deriving DecidableEq, Repr

/-- `CONTROLLER` (R9; spec/20 R212). -/
inductive Controller
  | absent
  | standard
  deriving DecidableEq, Repr

/-- The cost of an opcode: its base cycles and whether it is of the page-penalty class `p` (spec/30 R332, R341). -/
structure Cost where
  base : Nat
  paged : Bool
  deriving DecidableEq, Repr

/-- The machine's parameters (R9).  `cycleOverrides` is `CYCLE_COST` given as its differences from the table of
spec/30 R332 (DESIGN CHOICE, log 15).  A cost of 0 in it, or as `interruptCost`, takes one tick (DESIGN CHOICE, log 21). -/
structure Config where
  prgBanks : PrgBanks
  mirroring : Mirroring
  iscOpcodes : List Byte
  jmpIndPageWrap : Bool
  delayedRegs : List RegIndex
  writeDelayDots : Nat
  oddSkipNeedsRendering : Bool
  controller : Controller
  cycleOverrides : List (Byte × Cost)
  interruptCost : Nat
  deriving DecidableEq, Repr

/-- The defaults of R9.  `PRG_BANKS`, `MIRRORING` and `DELAYED_REGS` have no default in the spec: one bank, horizontal
mirroring and no delayed register are this model's choice for `State.reset` (DESIGN CHOICE, log 1). -/
def Config.default : Config where
  prgBanks := .one
  mirroring := .horizontal
  iscOpcodes := [0xE3, 0xE7, 0xEF, 0xF3, 0xF7, 0xFB, 0xFF]
  jmpIndPageWrap := false
  delayedRegs := []
  writeDelayDots := 3
  oddSkipNeedsRendering := true
  controller := .standard
  cycleOverrides := []
  interruptCost := 7

/-- Whether an ISC byte is in `ISC_OPCODES` (spec/30 R331, spec/48 R820). -/
def Config.admitsIsc (cfg : Config) (opc : Byte) : Bool := cfg.iscOpcodes.contains opc

/-- The free value of `BUTTONS`: what the host answers to the `n`-th call of `poll_button` whose answer it has not
listed, for a line index (R9 `BUTTONS`, D46 "a draw per call"; log 6).  Nothing constrains it. -/
opaque Config.freeButton : (n : Nat) → (line : Nat) → Bool

end Sys2Proof
end

