-- ==== Sys2Proof/Syntax.lean ====
section
/-! DEFINITION. Syntax.lean: the instructions, one constructor per admitted row of spec/opcode_table.json (spec/30 R330,
R332), and `decodeFailure` for the rows of DECODE_FAILURE (R331; log 14).  A constructor's argument is its operand: `v` an immediate
value, `a` an address (low byte first in memory), `d` a signed displacement. -/

namespace Sys2Proof

/-- The mnemonics of the opcode table (spec/30 R332), and the decode failure (R331). -/
inductive Mnemonic
  | lda | ldx | ldy | sta | stx | sty | tax | tay | txa | tya
  | tsx | txs | pha | pla | php | plp | and | eor | ora | bit
  | inc | dec | inx | dex | iny | dey | asl | lsr | rol | ror
  | adc | sbc | cmp | cpx | cpy | bpl | bmi | bvc | bvs | bcc
  | bcs | bne | beq | jmp | jsr | rts | brk | rti | clc | sec
  | cli | sei | clv | cld | sed | nop | isc
  | decodeFailure
  deriving DecidableEq, Repr

/-- The addressing modes with their operand bytes (spec/30 R311 to R323). -/
inductive Mode
  /-- R311: no operand bytes. -/
  | implied
  /-- R312: the accumulator. -/
  | acc
  /-- R313: the byte after the opcode. -/
  | imm (v : Byte)
  /-- R314: zero page. -/
  | zp (a : Byte)
  /-- R315: zero page indexed by X. -/
  | zpx (a : Byte)
  /-- R316: zero page indexed by Y. -/
  | zpy (a : Byte)
  /-- R317: indexed indirect, `(zp,X)`. -/
  | izx (a : Byte)
  /-- R318: indirect indexed, `(zp),Y`. -/
  | izy (a : Byte)
  /-- R319: absolute. -/
  | abs (a : Word)
  /-- R320: absolute indexed by X. -/
  | absx (a : Word)
  /-- R320: absolute indexed by Y. -/
  | absy (a : Word)
  /-- R321: indirect, JMP only. -/
  | ind (a : Word)
  /-- R323: relative, the branches only. -/
  | rel (d : Byte)
  deriving DecidableEq, Repr

/-- An instruction: one constructor per row of the opcode table. -/
inductive Instr
  -- Loads and stores (spec/40)
  /-- `LDA ($nn,X)`: opcode `$A1`, R401. -/
  | ldaIzx (a : Byte)
  /-- `LDA $nn`: opcode `$A5`, R401. -/
  | ldaZp (a : Byte)
  /-- `LDA #$nn`: opcode `$A9`, R401. -/
  | ldaImm (v : Byte)
  /-- `LDA $nnnn`: opcode `$AD`, R401. -/
  | ldaAbs (a : Word)
  /-- `LDA ($nn),Y`: opcode `$B1`, R401. -/
  | ldaIzy (a : Byte)
  /-- `LDA $nn,X`: opcode `$B5`, R401. -/
  | ldaZpx (a : Byte)
  /-- `LDA $nnnn,Y`: opcode `$B9`, R401. -/
  | ldaAbsy (a : Word)
  /-- `LDA $nnnn,X`: opcode `$BD`, R401. -/
  | ldaAbsx (a : Word)
  /-- `LDX #$nn`: opcode `$A2`, R402. -/
  | ldxImm (v : Byte)
  /-- `LDX $nn`: opcode `$A6`, R402. -/
  | ldxZp (a : Byte)
  /-- `LDX $nnnn`: opcode `$AE`, R402. -/
  | ldxAbs (a : Word)
  /-- `LDX $nn,Y`: opcode `$B6`, R402. -/
  | ldxZpy (a : Byte)
  /-- `LDX $nnnn,Y`: opcode `$BE`, R402. -/
  | ldxAbsy (a : Word)
  /-- `LDY #$nn`: opcode `$A0`, R403. -/
  | ldyImm (v : Byte)
  /-- `LDY $nn`: opcode `$A4`, R403. -/
  | ldyZp (a : Byte)
  /-- `LDY $nnnn`: opcode `$AC`, R403. -/
  | ldyAbs (a : Word)
  /-- `LDY $nn,X`: opcode `$B4`, R403. -/
  | ldyZpx (a : Byte)
  /-- `LDY $nnnn,X`: opcode `$BC`, R403. -/
  | ldyAbsx (a : Word)
  /-- `STA ($nn,X)`: opcode `$81`, R404. -/
  | staIzx (a : Byte)
  /-- `STA $nn`: opcode `$85`, R404. -/
  | staZp (a : Byte)
  /-- `STA $nnnn`: opcode `$8D`, R404. -/
  | staAbs (a : Word)
  /-- `STA ($nn),Y`: opcode `$91`, R404. -/
  | staIzy (a : Byte)
  /-- `STA $nn,X`: opcode `$95`, R404. -/
  | staZpx (a : Byte)
  /-- `STA $nnnn,Y`: opcode `$99`, R404. -/
  | staAbsy (a : Word)
  /-- `STA $nnnn,X`: opcode `$9D`, R404. -/
  | staAbsx (a : Word)
  /-- `STX $nn`: opcode `$86`, R405. -/
  | stxZp (a : Byte)
  /-- `STX $nnnn`: opcode `$8E`, R405. -/
  | stxAbs (a : Word)
  /-- `STX $nn,Y`: opcode `$96`, R405. -/
  | stxZpy (a : Byte)
  /-- `STY $nn`: opcode `$84`, R406. -/
  | styZp (a : Byte)
  /-- `STY $nnnn`: opcode `$8C`, R406. -/
  | styAbs (a : Word)
  /-- `STY $nn,X`: opcode `$94`, R406. -/
  | styZpx (a : Byte)
  -- Register transfers (spec/41)
  /-- `TAX`: opcode `$AA`, R451. -/
  | tax
  /-- `TAY`: opcode `$A8`, R452. -/
  | tay
  /-- `TXA`: opcode `$8A`, R453. -/
  | txa
  /-- `TYA`: opcode `$98`, R454. -/
  | tya
  /-- `TSX`: opcode `$BA`, R455. -/
  | tsx
  /-- `TXS`: opcode `$9A`, R456. -/
  | txs
  -- Stack (spec/42)
  /-- `PHA`: opcode `$48`, R502. -/
  | pha
  /-- `PLA`: opcode `$68`, R503. -/
  | pla
  /-- `PHP`: opcode `$08`, R504. -/
  | php
  /-- `PLP`: opcode `$28`, R505. -/
  | plp
  -- Logical (spec/43)
  /-- `AND ($nn,X)`: opcode `$21`, R551. -/
  | andIzx (a : Byte)
  /-- `AND $nn`: opcode `$25`, R551. -/
  | andZp (a : Byte)
  /-- `AND #$nn`: opcode `$29`, R551. -/
  | andImm (v : Byte)
  /-- `AND $nnnn`: opcode `$2D`, R551. -/
  | andAbs (a : Word)
  /-- `AND ($nn),Y`: opcode `$31`, R551. -/
  | andIzy (a : Byte)
  /-- `AND $nn,X`: opcode `$35`, R551. -/
  | andZpx (a : Byte)
  /-- `AND $nnnn,Y`: opcode `$39`, R551. -/
  | andAbsy (a : Word)
  /-- `AND $nnnn,X`: opcode `$3D`, R551. -/
  | andAbsx (a : Word)
  /-- `EOR ($nn,X)`: opcode `$41`, R552. -/
  | eorIzx (a : Byte)
  /-- `EOR $nn`: opcode `$45`, R552. -/
  | eorZp (a : Byte)
  /-- `EOR #$nn`: opcode `$49`, R552. -/
  | eorImm (v : Byte)
  /-- `EOR $nnnn`: opcode `$4D`, R552. -/
  | eorAbs (a : Word)
  /-- `EOR ($nn),Y`: opcode `$51`, R552. -/
  | eorIzy (a : Byte)
  /-- `EOR $nn,X`: opcode `$55`, R552. -/
  | eorZpx (a : Byte)
  /-- `EOR $nnnn,Y`: opcode `$59`, R552. -/
  | eorAbsy (a : Word)
  /-- `EOR $nnnn,X`: opcode `$5D`, R552. -/
  | eorAbsx (a : Word)
  /-- `ORA ($nn,X)`: opcode `$01`, R553. -/
  | oraIzx (a : Byte)
  /-- `ORA $nn`: opcode `$05`, R553. -/
  | oraZp (a : Byte)
  /-- `ORA #$nn`: opcode `$09`, R553. -/
  | oraImm (v : Byte)
  /-- `ORA $nnnn`: opcode `$0D`, R553. -/
  | oraAbs (a : Word)
  /-- `ORA ($nn),Y`: opcode `$11`, R553. -/
  | oraIzy (a : Byte)
  /-- `ORA $nn,X`: opcode `$15`, R553. -/
  | oraZpx (a : Byte)
  /-- `ORA $nnnn,Y`: opcode `$19`, R553. -/
  | oraAbsy (a : Word)
  /-- `ORA $nnnn,X`: opcode `$1D`, R553. -/
  | oraAbsx (a : Word)
  /-- `BIT $nn`: opcode `$24`, R554. -/
  | bitZp (a : Byte)
  /-- `BIT $nnnn`: opcode `$2C`, R554. -/
  | bitAbs (a : Word)
  -- Increments and decrements (spec/44)
  /-- `INC $nn`: opcode `$E6`, R601. -/
  | incZp (a : Byte)
  /-- `INC $nnnn`: opcode `$EE`, R601. -/
  | incAbs (a : Word)
  /-- `INC $nn,X`: opcode `$F6`, R601. -/
  | incZpx (a : Byte)
  /-- `INC $nnnn,X`: opcode `$FE`, R601. -/
  | incAbsx (a : Word)
  /-- `DEC $nn`: opcode `$C6`, R602. -/
  | decZp (a : Byte)
  /-- `DEC $nnnn`: opcode `$CE`, R602. -/
  | decAbs (a : Word)
  /-- `DEC $nn,X`: opcode `$D6`, R602. -/
  | decZpx (a : Byte)
  /-- `DEC $nnnn,X`: opcode `$DE`, R602. -/
  | decAbsx (a : Word)
  /-- `INX`: opcode `$E8`, R603. -/
  | inx
  /-- `DEX`: opcode `$CA`, R604. -/
  | dex
  /-- `INY`: opcode `$C8`, R605. -/
  | iny
  /-- `DEY`: opcode `$88`, R606. -/
  | dey
  -- Shifts and rotates (spec/45)
  /-- `ASL $nn`: opcode `$06`, R651. -/
  | aslZp (a : Byte)
  /-- `ASL A`: opcode `$0A`, R651. -/
  | aslAcc
  /-- `ASL $nnnn`: opcode `$0E`, R651. -/
  | aslAbs (a : Word)
  /-- `ASL $nn,X`: opcode `$16`, R651. -/
  | aslZpx (a : Byte)
  /-- `ASL $nnnn,X`: opcode `$1E`, R651. -/
  | aslAbsx (a : Word)
  /-- `LSR $nn`: opcode `$46`, R652. -/
  | lsrZp (a : Byte)
  /-- `LSR A`: opcode `$4A`, R652. -/
  | lsrAcc
  /-- `LSR $nnnn`: opcode `$4E`, R652. -/
  | lsrAbs (a : Word)
  /-- `LSR $nn,X`: opcode `$56`, R652. -/
  | lsrZpx (a : Byte)
  /-- `LSR $nnnn,X`: opcode `$5E`, R652. -/
  | lsrAbsx (a : Word)
  /-- `ROL $nn`: opcode `$26`, R653. -/
  | rolZp (a : Byte)
  /-- `ROL A`: opcode `$2A`, R653. -/
  | rolAcc
  /-- `ROL $nnnn`: opcode `$2E`, R653. -/
  | rolAbs (a : Word)
  /-- `ROL $nn,X`: opcode `$36`, R653. -/
  | rolZpx (a : Byte)
  /-- `ROL $nnnn,X`: opcode `$3E`, R653. -/
  | rolAbsx (a : Word)
  /-- `ROR $nn`: opcode `$66`, R654. -/
  | rorZp (a : Byte)
  /-- `ROR A`: opcode `$6A`, R654. -/
  | rorAcc
  /-- `ROR $nnnn`: opcode `$6E`, R654. -/
  | rorAbs (a : Word)
  /-- `ROR $nn,X`: opcode `$76`, R654. -/
  | rorZpx (a : Byte)
  /-- `ROR $nnnn,X`: opcode `$7E`, R654. -/
  | rorAbsx (a : Word)
  -- Arithmetic and comparison (spec/46)
  /-- `ADC ($nn,X)`: opcode `$61`, R705. -/
  | adcIzx (a : Byte)
  /-- `ADC $nn`: opcode `$65`, R705. -/
  | adcZp (a : Byte)
  /-- `ADC #$nn`: opcode `$69`, R705. -/
  | adcImm (v : Byte)
  /-- `ADC $nnnn`: opcode `$6D`, R705. -/
  | adcAbs (a : Word)
  /-- `ADC ($nn),Y`: opcode `$71`, R705. -/
  | adcIzy (a : Byte)
  /-- `ADC $nn,X`: opcode `$75`, R705. -/
  | adcZpx (a : Byte)
  /-- `ADC $nnnn,Y`: opcode `$79`, R705. -/
  | adcAbsy (a : Word)
  /-- `ADC $nnnn,X`: opcode `$7D`, R705. -/
  | adcAbsx (a : Word)
  /-- `SBC ($nn,X)`: opcode `$E1`, R710. -/
  | sbcIzx (a : Byte)
  /-- `SBC $nn`: opcode `$E5`, R710. -/
  | sbcZp (a : Byte)
  /-- `SBC #$nn`: opcode `$E9`, R710. -/
  | sbcImm (v : Byte)
  /-- `SBC $nnnn`: opcode `$ED`, R710. -/
  | sbcAbs (a : Word)
  /-- `SBC ($nn),Y`: opcode `$F1`, R710. -/
  | sbcIzy (a : Byte)
  /-- `SBC $nn,X`: opcode `$F5`, R710. -/
  | sbcZpx (a : Byte)
  /-- `SBC $nnnn,Y`: opcode `$F9`, R710. -/
  | sbcAbsy (a : Word)
  /-- `SBC $nnnn,X`: opcode `$FD`, R710. -/
  | sbcAbsx (a : Word)
  /-- `CMP ($nn,X)`: opcode `$C1`, R715. -/
  | cmpIzx (a : Byte)
  /-- `CMP $nn`: opcode `$C5`, R715. -/
  | cmpZp (a : Byte)
  /-- `CMP #$nn`: opcode `$C9`, R715. -/
  | cmpImm (v : Byte)
  /-- `CMP $nnnn`: opcode `$CD`, R715. -/
  | cmpAbs (a : Word)
  /-- `CMP ($nn),Y`: opcode `$D1`, R715. -/
  | cmpIzy (a : Byte)
  /-- `CMP $nn,X`: opcode `$D5`, R715. -/
  | cmpZpx (a : Byte)
  /-- `CMP $nnnn,Y`: opcode `$D9`, R715. -/
  | cmpAbsy (a : Word)
  /-- `CMP $nnnn,X`: opcode `$DD`, R715. -/
  | cmpAbsx (a : Word)
  /-- `CPX #$nn`: opcode `$E0`, R716. -/
  | cpxImm (v : Byte)
  /-- `CPX $nn`: opcode `$E4`, R716. -/
  | cpxZp (a : Byte)
  /-- `CPX $nnnn`: opcode `$EC`, R716. -/
  | cpxAbs (a : Word)
  /-- `CPY #$nn`: opcode `$C0`, R717. -/
  | cpyImm (v : Byte)
  /-- `CPY $nn`: opcode `$C4`, R717. -/
  | cpyZp (a : Byte)
  /-- `CPY $nnnn`: opcode `$CC`, R717. -/
  | cpyAbs (a : Word)
  -- Control transfer (spec/47)
  /-- `BPL label`: opcode `$10`, R751. -/
  | bpl (d : Byte)
  /-- `BMI label`: opcode `$30`, R752. -/
  | bmi (d : Byte)
  /-- `BVC label`: opcode `$50`, R753. -/
  | bvc (d : Byte)
  /-- `BVS label`: opcode `$70`, R754. -/
  | bvs (d : Byte)
  /-- `BCC label`: opcode `$90`, R755. -/
  | bcc (d : Byte)
  /-- `BCS label`: opcode `$B0`, R756. -/
  | bcs (d : Byte)
  /-- `BNE label`: opcode `$D0`, R757. -/
  | bne (d : Byte)
  /-- `BEQ label`: opcode `$F0`, R758. -/
  | beq (d : Byte)
  /-- `JMP $nnnn`: opcode `$4C`, R760. -/
  | jmpAbs (a : Word)
  /-- `JMP ($nnnn)`: opcode `$6C`, R760. -/
  | jmpInd (a : Word)
  /-- `JSR $nnnn`: opcode `$20`, R765. -/
  | jsr (a : Word)
  /-- `RTS`: opcode `$60`, R766. -/
  | rts
  /-- `BRK`: opcode `$00`, R790. -/
  | brk
  /-- `RTI`: opcode `$40`, R791. -/
  | rti
  -- Flag instructions (spec/48)
  /-- `CLC`: opcode `$18`, R801. -/
  | clc
  /-- `SEC`: opcode `$38`, R802. -/
  | sec
  /-- `CLI`: opcode `$58`, R803. -/
  | cli
  /-- `SEI`: opcode `$78`, R804. -/
  | sei
  /-- `CLV`: opcode `$B8`, R805. -/
  | clv
  /-- `CLD`: opcode `$D8`, R806. -/
  | cld
  /-- `SED`: opcode `$F8`, R807. -/
  | sed
  -- NOP (spec/48)
  /-- `NOP`: opcode `$EA`, R810. -/
  | nop
  -- ISC (spec/48)
  /-- `ISC ($nn,X)`: opcode `$E3`, R820. -/
  | iscIzx (a : Byte)
  /-- `ISC $nn`: opcode `$E7`, R820. -/
  | iscZp (a : Byte)
  /-- `ISC $nnnn`: opcode `$EF`, R820. -/
  | iscAbs (a : Word)
  /-- `ISC ($nn),Y`: opcode `$F3`, R820. -/
  | iscIzy (a : Byte)
  /-- `ISC $nn,X`: opcode `$F7`, R820. -/
  | iscZpx (a : Byte)
  /-- `ISC $nnnn,Y`: opcode `$FB`, R820. -/
  | iscAbsy (a : Word)
  /-- `ISC $nnnn,X`: opcode `$FF`, R820. -/
  | iscAbsx (a : Word)
  -- Illegal encodings (spec/30 R331)
  /-- A byte that is no admitted opcode: 98 rows of the table, and any ISC byte taken out of `ISC_OPCODES` (R331). -/
  | decodeFailure (opc : Byte)
  deriving DecidableEq, Repr

end Sys2Proof
end

