-- ==== Sys2Proof/WellFormed.lean ====
section
/-! DEFINITION. WellFormed.lean: which instructions a machine has.  Every operand of every constructor is legal; what a
parameter can change is only which of the seven ISC bytes are admitted (spec/30 R331, spec/48 R820). -/

namespace Sys2Proof

/-- The opcode bytes of spec/30 R331: the 98 bytes that no row of the opcode map names. -/
def illegalOpcodes : List Byte :=
  [0x02, 0x03, 0x04, 0x07, 0x0B, 0x0C, 0x0F, 0x12, 0x13, 0x14, 0x17, 0x1A, 0x1B, 0x1C] ++
  [0x1F, 0x22, 0x23, 0x27, 0x2B, 0x2F, 0x32, 0x33, 0x34, 0x37, 0x3A, 0x3B, 0x3C, 0x3F] ++
  [0x42, 0x43, 0x44, 0x47, 0x4B, 0x4F, 0x52, 0x53, 0x54, 0x57, 0x5A, 0x5B, 0x5C, 0x5F] ++
  [0x62, 0x63, 0x64, 0x67, 0x6B, 0x6F, 0x72, 0x73, 0x74, 0x77, 0x7A, 0x7B, 0x7C, 0x7F] ++
  [0x80, 0x82, 0x83, 0x87, 0x89, 0x8B, 0x8F, 0x92, 0x93, 0x97, 0x9B, 0x9C, 0x9E, 0x9F] ++
  [0xA3, 0xA7, 0xAB, 0xAF, 0xB2, 0xB3, 0xB7, 0xBB, 0xBF, 0xC2, 0xC3, 0xC7, 0xCB, 0xCF] ++
  [0xD2, 0xD3, 0xD4, 0xD7, 0xDA, 0xDB, 0xDC, 0xDF, 0xE2, 0xEB, 0xF2, 0xF4, 0xFA, 0xFC]

/-- The seven opcode bytes of ISC (spec/48 R820). -/
def iscBytes : List Byte := [0xE3, 0xE7, 0xEF, 0xF3, 0xF7, 0xFB, 0xFF]

/-- A byte whose fetch is a decode failure: one of the 98, or an ISC byte not in `ISC_OPCODES` (R331). -/
def Config.rejects (cfg : Config) (opc : Byte) : Bool :=
  illegalOpcodes.contains opc || (iscBytes.contains opc && !cfg.admitsIsc opc)

/-- The machine `cfg` has this instruction: an ISC form only where its byte is admitted, and `decodeFailure` only of a
byte that is no admitted opcode (R331). -/
def Instr.wf (cfg : Config) : Instr → Bool
  | .ldaIzx _ => true
  | .ldaZp _ => true
  | .ldaImm _ => true
  | .ldaAbs _ => true
  | .ldaIzy _ => true
  | .ldaZpx _ => true
  | .ldaAbsy _ => true
  | .ldaAbsx _ => true
  | .ldxImm _ => true
  | .ldxZp _ => true
  | .ldxAbs _ => true
  | .ldxZpy _ => true
  | .ldxAbsy _ => true
  | .ldyImm _ => true
  | .ldyZp _ => true
  | .ldyAbs _ => true
  | .ldyZpx _ => true
  | .ldyAbsx _ => true
  | .staIzx _ => true
  | .staZp _ => true
  | .staAbs _ => true
  | .staIzy _ => true
  | .staZpx _ => true
  | .staAbsy _ => true
  | .staAbsx _ => true
  | .stxZp _ => true
  | .stxAbs _ => true
  | .stxZpy _ => true
  | .styZp _ => true
  | .styAbs _ => true
  | .styZpx _ => true
  | .tax => true
  | .tay => true
  | .txa => true
  | .tya => true
  | .tsx => true
  | .txs => true
  | .pha => true
  | .pla => true
  | .php => true
  | .plp => true
  | .andIzx _ => true
  | .andZp _ => true
  | .andImm _ => true
  | .andAbs _ => true
  | .andIzy _ => true
  | .andZpx _ => true
  | .andAbsy _ => true
  | .andAbsx _ => true
  | .eorIzx _ => true
  | .eorZp _ => true
  | .eorImm _ => true
  | .eorAbs _ => true
  | .eorIzy _ => true
  | .eorZpx _ => true
  | .eorAbsy _ => true
  | .eorAbsx _ => true
  | .oraIzx _ => true
  | .oraZp _ => true
  | .oraImm _ => true
  | .oraAbs _ => true
  | .oraIzy _ => true
  | .oraZpx _ => true
  | .oraAbsy _ => true
  | .oraAbsx _ => true
  | .bitZp _ => true
  | .bitAbs _ => true
  | .incZp _ => true
  | .incAbs _ => true
  | .incZpx _ => true
  | .incAbsx _ => true
  | .decZp _ => true
  | .decAbs _ => true
  | .decZpx _ => true
  | .decAbsx _ => true
  | .inx => true
  | .dex => true
  | .iny => true
  | .dey => true
  | .aslZp _ => true
  | .aslAcc => true
  | .aslAbs _ => true
  | .aslZpx _ => true
  | .aslAbsx _ => true
  | .lsrZp _ => true
  | .lsrAcc => true
  | .lsrAbs _ => true
  | .lsrZpx _ => true
  | .lsrAbsx _ => true
  | .rolZp _ => true
  | .rolAcc => true
  | .rolAbs _ => true
  | .rolZpx _ => true
  | .rolAbsx _ => true
  | .rorZp _ => true
  | .rorAcc => true
  | .rorAbs _ => true
  | .rorZpx _ => true
  | .rorAbsx _ => true
  | .adcIzx _ => true
  | .adcZp _ => true
  | .adcImm _ => true
  | .adcAbs _ => true
  | .adcIzy _ => true
  | .adcZpx _ => true
  | .adcAbsy _ => true
  | .adcAbsx _ => true
  | .sbcIzx _ => true
  | .sbcZp _ => true
  | .sbcImm _ => true
  | .sbcAbs _ => true
  | .sbcIzy _ => true
  | .sbcZpx _ => true
  | .sbcAbsy _ => true
  | .sbcAbsx _ => true
  | .cmpIzx _ => true
  | .cmpZp _ => true
  | .cmpImm _ => true
  | .cmpAbs _ => true
  | .cmpIzy _ => true
  | .cmpZpx _ => true
  | .cmpAbsy _ => true
  | .cmpAbsx _ => true
  | .cpxImm _ => true
  | .cpxZp _ => true
  | .cpxAbs _ => true
  | .cpyImm _ => true
  | .cpyZp _ => true
  | .cpyAbs _ => true
  | .bpl _ => true
  | .bmi _ => true
  | .bvc _ => true
  | .bvs _ => true
  | .bcc _ => true
  | .bcs _ => true
  | .bne _ => true
  | .beq _ => true
  | .jmpAbs _ => true
  | .jmpInd _ => true
  | .jsr _ => true
  | .rts => true
  | .brk => true
  | .rti => true
  | .clc => true
  | .sec => true
  | .cli => true
  | .sei => true
  | .clv => true
  | .cld => true
  | .sed => true
  | .nop => true
  | .iscIzx _ => cfg.admitsIsc 0xE3
  | .iscZp _ => cfg.admitsIsc 0xE7
  | .iscAbs _ => cfg.admitsIsc 0xEF
  | .iscIzy _ => cfg.admitsIsc 0xF3
  | .iscZpx _ => cfg.admitsIsc 0xF7
  | .iscAbsy _ => cfg.admitsIsc 0xFB
  | .iscAbsx _ => cfg.admitsIsc 0xFF
  | .decodeFailure opc => cfg.rejects opc

end Sys2Proof
end

