-- ==== Sys2Proof/Decode.lean ====
section
/-! DEFINITION. Decode.lean: bytes to instructions and back (spec/30 R300, R301, R330, R332).  The decoder is total on any
bytes: a byte that is no admitted opcode decodes to `decodeFailure` of it, and bytes that end too soon are refused by
name. -/

namespace Sys2Proof

/-- `(h << 8) | l` (spec/00 R10); the low byte lies at the lower address (spec/20 R220). -/
def wordOf (l h : Byte) : Word := (h ++ l : BitVec (8 + 8))

/-- Bits 7..0 of a word. -/
def lowByte (w : Word) : Byte := w.setWidth 8

/-- Bits 15..8 of a word. -/
def highByte (w : Word) : Byte := (w >>> 8).setWidth 8

/-- `sext_16` (spec/00 R11). -/
def sext16 (b : Byte) : Word := b.signExtend 16

/-- `zext_16` (spec/00 R11). -/
def zext16 (b : Byte) : Word := b.setWidth 16

/-- The instruction's mnemonic in the opcode table (R332). -/
def Instr.mnemonic : Instr → Mnemonic
  | .ldaIzx _ => .lda
  | .ldaZp _ => .lda
  | .ldaImm _ => .lda
  | .ldaAbs _ => .lda
  | .ldaIzy _ => .lda
  | .ldaZpx _ => .lda
  | .ldaAbsy _ => .lda
  | .ldaAbsx _ => .lda
  | .ldxImm _ => .ldx
  | .ldxZp _ => .ldx
  | .ldxAbs _ => .ldx
  | .ldxZpy _ => .ldx
  | .ldxAbsy _ => .ldx
  | .ldyImm _ => .ldy
  | .ldyZp _ => .ldy
  | .ldyAbs _ => .ldy
  | .ldyZpx _ => .ldy
  | .ldyAbsx _ => .ldy
  | .staIzx _ => .sta
  | .staZp _ => .sta
  | .staAbs _ => .sta
  | .staIzy _ => .sta
  | .staZpx _ => .sta
  | .staAbsy _ => .sta
  | .staAbsx _ => .sta
  | .stxZp _ => .stx
  | .stxAbs _ => .stx
  | .stxZpy _ => .stx
  | .styZp _ => .sty
  | .styAbs _ => .sty
  | .styZpx _ => .sty
  | .tax => .tax
  | .tay => .tay
  | .txa => .txa
  | .tya => .tya
  | .tsx => .tsx
  | .txs => .txs
  | .pha => .pha
  | .pla => .pla
  | .php => .php
  | .plp => .plp
  | .andIzx _ => .and
  | .andZp _ => .and
  | .andImm _ => .and
  | .andAbs _ => .and
  | .andIzy _ => .and
  | .andZpx _ => .and
  | .andAbsy _ => .and
  | .andAbsx _ => .and
  | .eorIzx _ => .eor
  | .eorZp _ => .eor
  | .eorImm _ => .eor
  | .eorAbs _ => .eor
  | .eorIzy _ => .eor
  | .eorZpx _ => .eor
  | .eorAbsy _ => .eor
  | .eorAbsx _ => .eor
  | .oraIzx _ => .ora
  | .oraZp _ => .ora
  | .oraImm _ => .ora
  | .oraAbs _ => .ora
  | .oraIzy _ => .ora
  | .oraZpx _ => .ora
  | .oraAbsy _ => .ora
  | .oraAbsx _ => .ora
  | .bitZp _ => .bit
  | .bitAbs _ => .bit
  | .incZp _ => .inc
  | .incAbs _ => .inc
  | .incZpx _ => .inc
  | .incAbsx _ => .inc
  | .decZp _ => .dec
  | .decAbs _ => .dec
  | .decZpx _ => .dec
  | .decAbsx _ => .dec
  | .inx => .inx
  | .dex => .dex
  | .iny => .iny
  | .dey => .dey
  | .aslZp _ => .asl
  | .aslAcc => .asl
  | .aslAbs _ => .asl
  | .aslZpx _ => .asl
  | .aslAbsx _ => .asl
  | .lsrZp _ => .lsr
  | .lsrAcc => .lsr
  | .lsrAbs _ => .lsr
  | .lsrZpx _ => .lsr
  | .lsrAbsx _ => .lsr
  | .rolZp _ => .rol
  | .rolAcc => .rol
  | .rolAbs _ => .rol
  | .rolZpx _ => .rol
  | .rolAbsx _ => .rol
  | .rorZp _ => .ror
  | .rorAcc => .ror
  | .rorAbs _ => .ror
  | .rorZpx _ => .ror
  | .rorAbsx _ => .ror
  | .adcIzx _ => .adc
  | .adcZp _ => .adc
  | .adcImm _ => .adc
  | .adcAbs _ => .adc
  | .adcIzy _ => .adc
  | .adcZpx _ => .adc
  | .adcAbsy _ => .adc
  | .adcAbsx _ => .adc
  | .sbcIzx _ => .sbc
  | .sbcZp _ => .sbc
  | .sbcImm _ => .sbc
  | .sbcAbs _ => .sbc
  | .sbcIzy _ => .sbc
  | .sbcZpx _ => .sbc
  | .sbcAbsy _ => .sbc
  | .sbcAbsx _ => .sbc
  | .cmpIzx _ => .cmp
  | .cmpZp _ => .cmp
  | .cmpImm _ => .cmp
  | .cmpAbs _ => .cmp
  | .cmpIzy _ => .cmp
  | .cmpZpx _ => .cmp
  | .cmpAbsy _ => .cmp
  | .cmpAbsx _ => .cmp
  | .cpxImm _ => .cpx
  | .cpxZp _ => .cpx
  | .cpxAbs _ => .cpx
  | .cpyImm _ => .cpy
  | .cpyZp _ => .cpy
  | .cpyAbs _ => .cpy
  | .bpl _ => .bpl
  | .bmi _ => .bmi
  | .bvc _ => .bvc
  | .bvs _ => .bvs
  | .bcc _ => .bcc
  | .bcs _ => .bcs
  | .bne _ => .bne
  | .beq _ => .beq
  | .jmpAbs _ => .jmp
  | .jmpInd _ => .jmp
  | .jsr _ => .jsr
  | .rts => .rts
  | .brk => .brk
  | .rti => .rti
  | .clc => .clc
  | .sec => .sec
  | .cli => .cli
  | .sei => .sei
  | .clv => .clv
  | .cld => .cld
  | .sed => .sed
  | .nop => .nop
  | .iscIzx _ => .isc
  | .iscZp _ => .isc
  | .iscAbs _ => .isc
  | .iscIzy _ => .isc
  | .iscZpx _ => .isc
  | .iscAbsy _ => .isc
  | .iscAbsx _ => .isc
  | .decodeFailure _ => .decodeFailure

/-- The instruction's addressing mode with its operand (R332). -/
def Instr.mode : Instr → Mode
  | .ldaIzx a => .izx a
  | .ldaZp a => .zp a
  | .ldaImm v => .imm v
  | .ldaAbs a => .abs a
  | .ldaIzy a => .izy a
  | .ldaZpx a => .zpx a
  | .ldaAbsy a => .absy a
  | .ldaAbsx a => .absx a
  | .ldxImm v => .imm v
  | .ldxZp a => .zp a
  | .ldxAbs a => .abs a
  | .ldxZpy a => .zpy a
  | .ldxAbsy a => .absy a
  | .ldyImm v => .imm v
  | .ldyZp a => .zp a
  | .ldyAbs a => .abs a
  | .ldyZpx a => .zpx a
  | .ldyAbsx a => .absx a
  | .staIzx a => .izx a
  | .staZp a => .zp a
  | .staAbs a => .abs a
  | .staIzy a => .izy a
  | .staZpx a => .zpx a
  | .staAbsy a => .absy a
  | .staAbsx a => .absx a
  | .stxZp a => .zp a
  | .stxAbs a => .abs a
  | .stxZpy a => .zpy a
  | .styZp a => .zp a
  | .styAbs a => .abs a
  | .styZpx a => .zpx a
  | .tax => .implied
  | .tay => .implied
  | .txa => .implied
  | .tya => .implied
  | .tsx => .implied
  | .txs => .implied
  | .pha => .implied
  | .pla => .implied
  | .php => .implied
  | .plp => .implied
  | .andIzx a => .izx a
  | .andZp a => .zp a
  | .andImm v => .imm v
  | .andAbs a => .abs a
  | .andIzy a => .izy a
  | .andZpx a => .zpx a
  | .andAbsy a => .absy a
  | .andAbsx a => .absx a
  | .eorIzx a => .izx a
  | .eorZp a => .zp a
  | .eorImm v => .imm v
  | .eorAbs a => .abs a
  | .eorIzy a => .izy a
  | .eorZpx a => .zpx a
  | .eorAbsy a => .absy a
  | .eorAbsx a => .absx a
  | .oraIzx a => .izx a
  | .oraZp a => .zp a
  | .oraImm v => .imm v
  | .oraAbs a => .abs a
  | .oraIzy a => .izy a
  | .oraZpx a => .zpx a
  | .oraAbsy a => .absy a
  | .oraAbsx a => .absx a
  | .bitZp a => .zp a
  | .bitAbs a => .abs a
  | .incZp a => .zp a
  | .incAbs a => .abs a
  | .incZpx a => .zpx a
  | .incAbsx a => .absx a
  | .decZp a => .zp a
  | .decAbs a => .abs a
  | .decZpx a => .zpx a
  | .decAbsx a => .absx a
  | .inx => .implied
  | .dex => .implied
  | .iny => .implied
  | .dey => .implied
  | .aslZp a => .zp a
  | .aslAcc => .acc
  | .aslAbs a => .abs a
  | .aslZpx a => .zpx a
  | .aslAbsx a => .absx a
  | .lsrZp a => .zp a
  | .lsrAcc => .acc
  | .lsrAbs a => .abs a
  | .lsrZpx a => .zpx a
  | .lsrAbsx a => .absx a
  | .rolZp a => .zp a
  | .rolAcc => .acc
  | .rolAbs a => .abs a
  | .rolZpx a => .zpx a
  | .rolAbsx a => .absx a
  | .rorZp a => .zp a
  | .rorAcc => .acc
  | .rorAbs a => .abs a
  | .rorZpx a => .zpx a
  | .rorAbsx a => .absx a
  | .adcIzx a => .izx a
  | .adcZp a => .zp a
  | .adcImm v => .imm v
  | .adcAbs a => .abs a
  | .adcIzy a => .izy a
  | .adcZpx a => .zpx a
  | .adcAbsy a => .absy a
  | .adcAbsx a => .absx a
  | .sbcIzx a => .izx a
  | .sbcZp a => .zp a
  | .sbcImm v => .imm v
  | .sbcAbs a => .abs a
  | .sbcIzy a => .izy a
  | .sbcZpx a => .zpx a
  | .sbcAbsy a => .absy a
  | .sbcAbsx a => .absx a
  | .cmpIzx a => .izx a
  | .cmpZp a => .zp a
  | .cmpImm v => .imm v
  | .cmpAbs a => .abs a
  | .cmpIzy a => .izy a
  | .cmpZpx a => .zpx a
  | .cmpAbsy a => .absy a
  | .cmpAbsx a => .absx a
  | .cpxImm v => .imm v
  | .cpxZp a => .zp a
  | .cpxAbs a => .abs a
  | .cpyImm v => .imm v
  | .cpyZp a => .zp a
  | .cpyAbs a => .abs a
  | .bpl d => .rel d
  | .bmi d => .rel d
  | .bvc d => .rel d
  | .bvs d => .rel d
  | .bcc d => .rel d
  | .bcs d => .rel d
  | .bne d => .rel d
  | .beq d => .rel d
  | .jmpAbs a => .abs a
  | .jmpInd a => .ind a
  | .jsr a => .abs a
  | .rts => .implied
  | .brk => .implied
  | .rti => .implied
  | .clc => .implied
  | .sec => .implied
  | .cli => .implied
  | .sei => .implied
  | .clv => .implied
  | .cld => .implied
  | .sed => .implied
  | .nop => .implied
  | .iscIzx a => .izx a
  | .iscZp a => .zp a
  | .iscAbs a => .abs a
  | .iscIzy a => .izy a
  | .iscZpx a => .zpx a
  | .iscAbsy a => .absy a
  | .iscAbsx a => .absx a
  | .decodeFailure _ => .implied

/-- The instruction's opcode byte (R330, R332). -/
def Instr.opcode : Instr → Byte
  | .ldaIzx _ => 0xA1
  | .ldaZp _ => 0xA5
  | .ldaImm _ => 0xA9
  | .ldaAbs _ => 0xAD
  | .ldaIzy _ => 0xB1
  | .ldaZpx _ => 0xB5
  | .ldaAbsy _ => 0xB9
  | .ldaAbsx _ => 0xBD
  | .ldxImm _ => 0xA2
  | .ldxZp _ => 0xA6
  | .ldxAbs _ => 0xAE
  | .ldxZpy _ => 0xB6
  | .ldxAbsy _ => 0xBE
  | .ldyImm _ => 0xA0
  | .ldyZp _ => 0xA4
  | .ldyAbs _ => 0xAC
  | .ldyZpx _ => 0xB4
  | .ldyAbsx _ => 0xBC
  | .staIzx _ => 0x81
  | .staZp _ => 0x85
  | .staAbs _ => 0x8D
  | .staIzy _ => 0x91
  | .staZpx _ => 0x95
  | .staAbsy _ => 0x99
  | .staAbsx _ => 0x9D
  | .stxZp _ => 0x86
  | .stxAbs _ => 0x8E
  | .stxZpy _ => 0x96
  | .styZp _ => 0x84
  | .styAbs _ => 0x8C
  | .styZpx _ => 0x94
  | .tax => 0xAA
  | .tay => 0xA8
  | .txa => 0x8A
  | .tya => 0x98
  | .tsx => 0xBA
  | .txs => 0x9A
  | .pha => 0x48
  | .pla => 0x68
  | .php => 0x08
  | .plp => 0x28
  | .andIzx _ => 0x21
  | .andZp _ => 0x25
  | .andImm _ => 0x29
  | .andAbs _ => 0x2D
  | .andIzy _ => 0x31
  | .andZpx _ => 0x35
  | .andAbsy _ => 0x39
  | .andAbsx _ => 0x3D
  | .eorIzx _ => 0x41
  | .eorZp _ => 0x45
  | .eorImm _ => 0x49
  | .eorAbs _ => 0x4D
  | .eorIzy _ => 0x51
  | .eorZpx _ => 0x55
  | .eorAbsy _ => 0x59
  | .eorAbsx _ => 0x5D
  | .oraIzx _ => 0x01
  | .oraZp _ => 0x05
  | .oraImm _ => 0x09
  | .oraAbs _ => 0x0D
  | .oraIzy _ => 0x11
  | .oraZpx _ => 0x15
  | .oraAbsy _ => 0x19
  | .oraAbsx _ => 0x1D
  | .bitZp _ => 0x24
  | .bitAbs _ => 0x2C
  | .incZp _ => 0xE6
  | .incAbs _ => 0xEE
  | .incZpx _ => 0xF6
  | .incAbsx _ => 0xFE
  | .decZp _ => 0xC6
  | .decAbs _ => 0xCE
  | .decZpx _ => 0xD6
  | .decAbsx _ => 0xDE
  | .inx => 0xE8
  | .dex => 0xCA
  | .iny => 0xC8
  | .dey => 0x88
  | .aslZp _ => 0x06
  | .aslAcc => 0x0A
  | .aslAbs _ => 0x0E
  | .aslZpx _ => 0x16
  | .aslAbsx _ => 0x1E
  | .lsrZp _ => 0x46
  | .lsrAcc => 0x4A
  | .lsrAbs _ => 0x4E
  | .lsrZpx _ => 0x56
  | .lsrAbsx _ => 0x5E
  | .rolZp _ => 0x26
  | .rolAcc => 0x2A
  | .rolAbs _ => 0x2E
  | .rolZpx _ => 0x36
  | .rolAbsx _ => 0x3E
  | .rorZp _ => 0x66
  | .rorAcc => 0x6A
  | .rorAbs _ => 0x6E
  | .rorZpx _ => 0x76
  | .rorAbsx _ => 0x7E
  | .adcIzx _ => 0x61
  | .adcZp _ => 0x65
  | .adcImm _ => 0x69
  | .adcAbs _ => 0x6D
  | .adcIzy _ => 0x71
  | .adcZpx _ => 0x75
  | .adcAbsy _ => 0x79
  | .adcAbsx _ => 0x7D
  | .sbcIzx _ => 0xE1
  | .sbcZp _ => 0xE5
  | .sbcImm _ => 0xE9
  | .sbcAbs _ => 0xED
  | .sbcIzy _ => 0xF1
  | .sbcZpx _ => 0xF5
  | .sbcAbsy _ => 0xF9
  | .sbcAbsx _ => 0xFD
  | .cmpIzx _ => 0xC1
  | .cmpZp _ => 0xC5
  | .cmpImm _ => 0xC9
  | .cmpAbs _ => 0xCD
  | .cmpIzy _ => 0xD1
  | .cmpZpx _ => 0xD5
  | .cmpAbsy _ => 0xD9
  | .cmpAbsx _ => 0xDD
  | .cpxImm _ => 0xE0
  | .cpxZp _ => 0xE4
  | .cpxAbs _ => 0xEC
  | .cpyImm _ => 0xC0
  | .cpyZp _ => 0xC4
  | .cpyAbs _ => 0xCC
  | .bpl _ => 0x10
  | .bmi _ => 0x30
  | .bvc _ => 0x50
  | .bvs _ => 0x70
  | .bcc _ => 0x90
  | .bcs _ => 0xB0
  | .bne _ => 0xD0
  | .beq _ => 0xF0
  | .jmpAbs _ => 0x4C
  | .jmpInd _ => 0x6C
  | .jsr _ => 0x20
  | .rts => 0x60
  | .brk => 0x00
  | .rti => 0x40
  | .clc => 0x18
  | .sec => 0x38
  | .cli => 0x58
  | .sei => 0x78
  | .clv => 0xB8
  | .cld => 0xD8
  | .sed => 0xF8
  | .nop => 0xEA
  | .iscIzx _ => 0xE3
  | .iscZp _ => 0xE7
  | .iscAbs _ => 0xEF
  | .iscIzy _ => 0xF3
  | .iscZpx _ => 0xF7
  | .iscAbsy _ => 0xFB
  | .iscAbsx _ => 0xFF
  | .decodeFailure opc => opc

/-- How many bytes an instruction has, told by its opcode byte alone (R300, R301, and the lengths of R332).  Of a byte that is
no opcode one byte is examined (R303). -/
def opcodeLength (opc : Byte) : Nat :=
  match opc.toNat with
  | 0x01 | 0x05 | 0x06 | 0x09 | 0x10 | 0x11 | 0x15 | 0x16 | 0x21 | 0x24 | 0x25 | 0x26 => 2
  | 0x29 | 0x30 | 0x31 | 0x35 | 0x36 | 0x41 | 0x45 | 0x46 | 0x49 | 0x50 | 0x51 | 0x55 => 2
  | 0x56 | 0x61 | 0x65 | 0x66 | 0x69 | 0x70 | 0x71 | 0x75 | 0x76 | 0x81 | 0x84 | 0x85 => 2
  | 0x86 | 0x90 | 0x91 | 0x94 | 0x95 | 0x96 | 0xA0 | 0xA1 | 0xA2 | 0xA4 | 0xA5 | 0xA6 => 2
  | 0xA9 | 0xB0 | 0xB1 | 0xB4 | 0xB5 | 0xB6 | 0xC0 | 0xC1 | 0xC4 | 0xC5 | 0xC6 | 0xC9 => 2
  | 0xD0 | 0xD1 | 0xD5 | 0xD6 | 0xE0 | 0xE1 | 0xE3 | 0xE4 | 0xE5 | 0xE6 | 0xE7 | 0xE9 => 2
  | 0xF0 | 0xF1 | 0xF3 | 0xF5 | 0xF6 | 0xF7 => 2
  | 0x0D | 0x0E | 0x19 | 0x1D | 0x1E | 0x20 | 0x2C | 0x2D | 0x2E | 0x39 | 0x3D | 0x3E => 3
  | 0x4C | 0x4D | 0x4E | 0x59 | 0x5D | 0x5E | 0x6C | 0x6D | 0x6E | 0x79 | 0x7D | 0x7E => 3
  | 0x8C | 0x8D | 0x8E | 0x99 | 0x9D | 0xAC | 0xAD | 0xAE | 0xB9 | 0xBC | 0xBD | 0xBE => 3
  | 0xCC | 0xCD | 0xCE | 0xD9 | 0xDD | 0xDE | 0xEC | 0xED | 0xEE | 0xEF | 0xF9 | 0xFB => 3
  | 0xFD | 0xFE | 0xFF => 3
  | _ => 1

/-- The length of the instruction a machine reads from an opcode byte: 1 where the byte is rejected (R303, R331). -/
def instrLength (cfg : Config) (opc : Byte) : Nat := if cfg.rejects opc then 1 else opcodeLength opc

/-- The opcode map of R330: the instruction of an opcode byte and the two bytes after it (of which an instruction uses only as
many as it has). -/
def opcodeMap (opc b c : Byte) : Instr :=
  match opc.toNat with
  | 0x00 => .brk
  | 0x01 => .oraIzx b
  | 0x05 => .oraZp b
  | 0x06 => .aslZp b
  | 0x08 => .php
  | 0x09 => .oraImm b
  | 0x0A => .aslAcc
  | 0x0D => .oraAbs (wordOf b c)
  | 0x0E => .aslAbs (wordOf b c)
  | 0x10 => .bpl b
  | 0x11 => .oraIzy b
  | 0x15 => .oraZpx b
  | 0x16 => .aslZpx b
  | 0x18 => .clc
  | 0x19 => .oraAbsy (wordOf b c)
  | 0x1D => .oraAbsx (wordOf b c)
  | 0x1E => .aslAbsx (wordOf b c)
  | 0x20 => .jsr (wordOf b c)
  | 0x21 => .andIzx b
  | 0x24 => .bitZp b
  | 0x25 => .andZp b
  | 0x26 => .rolZp b
  | 0x28 => .plp
  | 0x29 => .andImm b
  | 0x2A => .rolAcc
  | 0x2C => .bitAbs (wordOf b c)
  | 0x2D => .andAbs (wordOf b c)
  | 0x2E => .rolAbs (wordOf b c)
  | 0x30 => .bmi b
  | 0x31 => .andIzy b
  | 0x35 => .andZpx b
  | 0x36 => .rolZpx b
  | 0x38 => .sec
  | 0x39 => .andAbsy (wordOf b c)
  | 0x3D => .andAbsx (wordOf b c)
  | 0x3E => .rolAbsx (wordOf b c)
  | 0x40 => .rti
  | 0x41 => .eorIzx b
  | 0x45 => .eorZp b
  | 0x46 => .lsrZp b
  | 0x48 => .pha
  | 0x49 => .eorImm b
  | 0x4A => .lsrAcc
  | 0x4C => .jmpAbs (wordOf b c)
  | 0x4D => .eorAbs (wordOf b c)
  | 0x4E => .lsrAbs (wordOf b c)
  | 0x50 => .bvc b
  | 0x51 => .eorIzy b
  | 0x55 => .eorZpx b
  | 0x56 => .lsrZpx b
  | 0x58 => .cli
  | 0x59 => .eorAbsy (wordOf b c)
  | 0x5D => .eorAbsx (wordOf b c)
  | 0x5E => .lsrAbsx (wordOf b c)
  | 0x60 => .rts
  | 0x61 => .adcIzx b
  | 0x65 => .adcZp b
  | 0x66 => .rorZp b
  | 0x68 => .pla
  | 0x69 => .adcImm b
  | 0x6A => .rorAcc
  | 0x6C => .jmpInd (wordOf b c)
  | 0x6D => .adcAbs (wordOf b c)
  | 0x6E => .rorAbs (wordOf b c)
  | 0x70 => .bvs b
  | 0x71 => .adcIzy b
  | 0x75 => .adcZpx b
  | 0x76 => .rorZpx b
  | 0x78 => .sei
  | 0x79 => .adcAbsy (wordOf b c)
  | 0x7D => .adcAbsx (wordOf b c)
  | 0x7E => .rorAbsx (wordOf b c)
  | 0x81 => .staIzx b
  | 0x84 => .styZp b
  | 0x85 => .staZp b
  | 0x86 => .stxZp b
  | 0x88 => .dey
  | 0x8A => .txa
  | 0x8C => .styAbs (wordOf b c)
  | 0x8D => .staAbs (wordOf b c)
  | 0x8E => .stxAbs (wordOf b c)
  | 0x90 => .bcc b
  | 0x91 => .staIzy b
  | 0x94 => .styZpx b
  | 0x95 => .staZpx b
  | 0x96 => .stxZpy b
  | 0x98 => .tya
  | 0x99 => .staAbsy (wordOf b c)
  | 0x9A => .txs
  | 0x9D => .staAbsx (wordOf b c)
  | 0xA0 => .ldyImm b
  | 0xA1 => .ldaIzx b
  | 0xA2 => .ldxImm b
  | 0xA4 => .ldyZp b
  | 0xA5 => .ldaZp b
  | 0xA6 => .ldxZp b
  | 0xA8 => .tay
  | 0xA9 => .ldaImm b
  | 0xAA => .tax
  | 0xAC => .ldyAbs (wordOf b c)
  | 0xAD => .ldaAbs (wordOf b c)
  | 0xAE => .ldxAbs (wordOf b c)
  | 0xB0 => .bcs b
  | 0xB1 => .ldaIzy b
  | 0xB4 => .ldyZpx b
  | 0xB5 => .ldaZpx b
  | 0xB6 => .ldxZpy b
  | 0xB8 => .clv
  | 0xB9 => .ldaAbsy (wordOf b c)
  | 0xBA => .tsx
  | 0xBC => .ldyAbsx (wordOf b c)
  | 0xBD => .ldaAbsx (wordOf b c)
  | 0xBE => .ldxAbsy (wordOf b c)
  | 0xC0 => .cpyImm b
  | 0xC1 => .cmpIzx b
  | 0xC4 => .cpyZp b
  | 0xC5 => .cmpZp b
  | 0xC6 => .decZp b
  | 0xC8 => .iny
  | 0xC9 => .cmpImm b
  | 0xCA => .dex
  | 0xCC => .cpyAbs (wordOf b c)
  | 0xCD => .cmpAbs (wordOf b c)
  | 0xCE => .decAbs (wordOf b c)
  | 0xD0 => .bne b
  | 0xD1 => .cmpIzy b
  | 0xD5 => .cmpZpx b
  | 0xD6 => .decZpx b
  | 0xD8 => .cld
  | 0xD9 => .cmpAbsy (wordOf b c)
  | 0xDD => .cmpAbsx (wordOf b c)
  | 0xDE => .decAbsx (wordOf b c)
  | 0xE0 => .cpxImm b
  | 0xE1 => .sbcIzx b
  | 0xE3 => .iscIzx b
  | 0xE4 => .cpxZp b
  | 0xE5 => .sbcZp b
  | 0xE6 => .incZp b
  | 0xE7 => .iscZp b
  | 0xE8 => .inx
  | 0xE9 => .sbcImm b
  | 0xEA => .nop
  | 0xEC => .cpxAbs (wordOf b c)
  | 0xED => .sbcAbs (wordOf b c)
  | 0xEE => .incAbs (wordOf b c)
  | 0xEF => .iscAbs (wordOf b c)
  | 0xF0 => .beq b
  | 0xF1 => .sbcIzy b
  | 0xF3 => .iscIzy b
  | 0xF5 => .sbcZpx b
  | 0xF6 => .incZpx b
  | 0xF7 => .iscZpx b
  | 0xF8 => .sed
  | 0xF9 => .sbcAbsy (wordOf b c)
  | 0xFB => .iscAbsy (wordOf b c)
  | 0xFD => .sbcAbsx (wordOf b c)
  | 0xFE => .incAbsx (wordOf b c)
  | 0xFF => .iscAbsx (wordOf b c)
  | _ => .decodeFailure opc

/-- The decode of R303: the row of the opcode byte, or a decode failure (R331). -/
def decodeOp (cfg : Config) (opc b c : Byte) : Instr :=
  if cfg.rejects opc then .decodeFailure opc else opcodeMap opc b c

/-- Why bytes hold no whole instruction. -/
inductive DecodeError
  /-- There is no opcode byte. -/
  | empty
  /-- The opcode byte's operand bytes are not all there. -/
  | truncated (opc : Byte)
  deriving DecidableEq, Repr

/-- The instruction at the head of a list of bytes, and the bytes after it. -/
def decode (cfg : Config) : List Byte → Except DecodeError (Instr × List Byte)
  | [] => .error .empty
  | opc :: rest =>
    if rest.length + 1 < instrLength cfg opc then .error (.truncated opc)
    else .ok (decodeOp cfg opc (rest.getD 0 0) (rest.getD 1 0), rest.drop (instrLength cfg opc - 1))

/-- The operand bytes of a mode, low byte first (R300, R220). -/
def Mode.bytes : Mode → List Byte
  | .implied => []
  | .acc => []
  | .imm v => [v]
  | .zp a => [a]
  | .zpx a => [a]
  | .zpy a => [a]
  | .izx a => [a]
  | .izy a => [a]
  | .abs a => [lowByte a, highByte a]
  | .absx a => [lowByte a, highByte a]
  | .absy a => [lowByte a, highByte a]
  | .ind a => [lowByte a, highByte a]
  | .rel d => [d]

/-- The bytes of an instruction (R300). -/
def encode (i : Instr) : List Byte := i.opcode :: i.mode.bytes

/-- The first `n` bytes of a number, the lowest first. -/
def bytesOfNat : (n : Nat) → (w : Nat) → List Byte
  | 0, _ => []
  | n + 1, w => BitVec.ofNat 8 w :: bytesOfNat n (w / 256)

/-- The longest instruction, in bytes (R300). -/
def maxLength : Nat := 3

/-- The instruction bytes of a word of the opcode table, numbered as the table numbers its bits: bit 0 is the least significant bit of the
opcode byte, and every bit from `nbits` on is 0. -/
def tableBytes (nbits w : Nat) : List Byte := bytesOfNat maxLength (w % 2 ^ nbits)

/-- What this decoder reads from a word of the opcode table, under the parameters' defaults (R9). -/
def decodeTableWord (nbits w : Nat) : Option Instr :=
  match decode Config.default (tableBytes nbits w) with
  | .ok (i, _) => some i
  | .error _ => none

end Sys2Proof
end

