-- ==== Sys2Proof/Machine/Memory.lean ====
section
/-! DEFINITION. Machine/Memory.lean: a memory as plain data in one canonical form, and where an address lands in each memory
(spec/10 R160, spec/20 R201, R202, R204, R241, R242). -/

namespace Sys2Proof.Machine

/-- A memory: its (address, byte) pairs, addresses strictly rising, no byte equal to what an unlisted address reads as. -/
abbrev Memory := List Host.Cell

/-- What an unlisted address of every memory reads as.  The spec leaves the open memories' first contents open, and its own
test vectors use all-zero (spec/00 R9): DESIGN CHOICE, log 2. -/
def Memory.unlisted : Byte := 0

/-- The byte at an address. -/
def Memory.read : Memory → Nat → Byte
  | [], _ => Memory.unlisted
  | (k, b) :: rest, a => if a = k then b else if a < k then Memory.unlisted else Memory.read rest a

/-- One cell before a memory, left out when its byte is what an unlisted address reads as. -/
def Memory.push (a : Nat) (b : Byte) (m : Memory) : Memory := if b = Memory.unlisted then m else (a, b) :: m

/-- The memory with one byte changed, in canonical form again. -/
def Memory.write : Memory → Nat → Byte → Memory
  | [], a, b => Memory.push a b []
  | (k, c) :: rest, a, b =>
    if a = k then Memory.push a b rest
    else if a < k then Memory.push a b ((k, c) :: rest)
    else (k, c) :: Memory.write rest a b

/-- Every address of the memory is at least `n`. -/
def Memory.above (n : Nat) (m : Memory) : Bool := m.all fun c => n ≤ c.1

/-- Every address of the memory is below its size (spec/10 R160). -/
def Memory.below (size : Nat) (m : Memory) : Bool := m.all fun c => c.1 < size

/-- The canonical form: addresses strictly rising, no unlisted value listed. -/
def Memory.wf : Memory → Bool
  | [] => true
  | (k, b) :: rest => decide (b ≠ Memory.unlisted) && Memory.above (k + 1) rest && Memory.wf rest

/-- A memory of a size, in canonical form. -/
def Memory.ok (size : Nat) (m : Memory) : Bool := m.wf && m.below size

/-- The memory that holds these bytes from an address on, and what it held elsewhere. -/
def Memory.writeBytes (m : Memory) (a : Nat) : List Byte → Memory
  | [] => m
  | b :: rest => (m.write a b).writeBytes (a + 1) rest

/-- Sizes of the memories (spec/00 R8, spec/10 R160). -/
def wramSize : Nat := 0x800
/-- Pattern memory, 8 KB (R8). -/
def chrSize : Nat := 0x2000
/-- Nametable RAM, 2 KB (R8). -/
def ciramSize : Nat := 0x800
/-- Palette RAM, 32 bytes (R8). -/
def palSize : Nat := 0x20
/-- Primary OAM, 64 entries of 4 bytes (R8). -/
def oamSize : Nat := 0x100
/-- Secondary OAM, 8 entries of 4 bytes (R8). -/
def oam2Size : Nat := 0x20

/-- PRG ROM, 16384 × `PRG_BANKS` bytes (R8). -/
def prgSize : PrgBanks → Nat
  | .one => 0x4000
  | .two => 0x8000

/-- R202: work RAM is reached by the low 11 bits of the address. -/
def wramIndex (a : Word) : Nat := (a &&& 0x07FF).toNat

/-- R204: program ROM is reached by the low 14 bits with one bank and by the low 15 with two. -/
def prgIndex (banks : PrgBanks) (a : Word) : Nat :=
  match banks with
  | .one => (a &&& 0x3FFF).toNat
  | .two => (a &&& 0x7FFF).toNat

/-- R241: the nametable byte an address of `$2000`-`$3EFF` reaches; `$3000` on folds down by `$1000`. -/
def ntIndex (mir : Mirroring) (a : Word) : Nat :=
  let folded := if 0x3000 ≤ a.toNat then a.toNat - 0x1000 else a.toNat
  let table := folded / 0x400 % 4
  let offset := folded % 0x400
  match mir with
  | .horizontal => table / 2 * 0x400 + offset
  | .vertical => table % 2 * 0x400 + offset

/-- R242: the palette byte an address reaches; entries `$10`, `$14`, `$18`, `$1C` are those of `$00`, `$04`, `$08`, `$0C`. -/
def palIndex (a : Word) : Nat :=
  let i := (a &&& 0x1F).toNat
  if i = 0x10 ∨ i = 0x14 ∨ i = 0x18 ∨ i = 0x1C then i - 0x10 else i

end Sys2Proof.Machine
end

