-- ==== Sys2Proof/Machine/State.lean ====
section
/-! DEFINITION. Machine/State.lean: everything the spec gives the machine (spec/10), as plain data; why a step can stop; and the
power-on state (spec/70 R1300, R1301). -/

namespace Sys2Proof.Machine

/-- Why the machine stops. -/
inductive Fault
  /-- Raised by `step` of a machine whose `cpu_fault` is already set: `MachineStep` answers `Faulted` and changes nothing
  (spec/52 R1101, spec/60 R1240).  Safe: the spec stops the machine there for good. -/
  | decodeFailure (opcode : Byte) (addr : Word)
  deriving DecidableEq, Repr

/-- Why an instruction has no meaning in this model. -/
inductive Refusal
  /-- An instruction rejected by name in exec's arm.  Safe; no arm does so. -/
  | notModelled (mnemonic : String)
  deriving DecidableEq, Repr

/-- The value of `cpu_fault` that is not `none` (R131). -/
structure DecodeFault where
  opcode : Byte
  addr : Word
  deriving DecidableEq, Repr

/-- The processor (spec/10 sections 1 to 3). -/
structure Cpu where
  /-- R100. -/
  a : Byte
  /-- R101. -/
  x : Byte
  /-- R102. -/
  y : Byte
  /-- R103. -/
  s : Byte
  /-- R110. -/
  p : Byte
  /-- R104. -/
  pc : Word
  /-- R130. -/
  budget : Nat
  /-- R131. -/
  fault : Option DecodeFault
  /-- R121. -/
  resetPending : Bool
  deriving DecidableEq, Repr

/-- A sprite slot (R152). -/
structure Slot where
  lo : Byte
  hi : Byte
  attr : Byte
  xcnt : Byte
  active : Bool
  deriving DecidableEq, Repr

/-- What the sprite fetch holds within a slot's eight dots (spec/50 R932).  The spec names the bytes and lists them under no state:
the model's own fields (DESIGN CHOICE, log 10). -/
structure SpriteFetch where
  sy : Byte
  tile : Byte
  attr : Byte
  sx : Byte
  lo : Byte
  hi : Byte
  deriving DecidableEq, Repr

/-- The picture unit (spec/10 sections 4 to 6). -/
structure Ppu where
  /-- R140. -/
  ctrl : Byte
  /-- R141. -/
  mask : Byte
  /-- R142. -/
  vblank : Bool
  /-- R142. -/
  s0hit : Bool
  /-- R143. -/
  oamAddr : Byte
  /-- R144. -/
  v : VramReg
  /-- R144. -/
  t : VramReg
  /-- R145. -/
  fineX : BitVec 3
  /-- R146: true selects the second write of a pair. -/
  w : Bool
  /-- R147. -/
  readBuf : Byte
  /-- R150. -/
  scanline : Nat
  /-- R150. -/
  dot : Nat
  /-- R150. -/
  frame : Nat
  /-- R151. -/
  bgLo : BitVec 16
  /-- R151. -/
  bgHi : BitVec 16
  /-- R151. -/
  bgAt0 : BitVec 16
  /-- R151. -/
  bgAt1 : BitVec 16
  /-- R151. -/
  ntByte : Byte
  /-- R151. -/
  atBits : BitVec 2
  /-- R151. -/
  ptLo : Byte
  /-- R151. -/
  ptHi : Byte
  /-- R152: the eight slots, the first of the list slot 0. -/
  spr : List Slot
  /-- R932. -/
  fetch : SpriteFetch
  /-- R152. -/
  oam2 : Memory
  /-- R152. -/
  oam2Count : Nat
  /-- R152. -/
  s0Next : Bool
  /-- R152. -/
  s0Cur : Bool
  /-- R160. -/
  chr : Memory
  /-- R160. -/
  ciram : Memory
  /-- R160. -/
  pal : Memory
  /-- R160, R161. -/
  oam : Memory
  deriving DecidableEq, Repr

/-- An entry of the delayed-write queue (R171). -/
structure QueuedWrite where
  target : Nat
  reg : RegIndex
  byte : Byte
  deriving DecidableEq, Repr

/-- The controller port's shift state (R172). -/
structure Pad where
  strobe : Bool
  index : Nat
  deriving DecidableEq, Repr

/-- What the host sets before one step (spec/52 R1130). -/
structure HostInput where
  run : Bool
  resetReq : Bool
  irqLine : Bool
  sinkReady : Bool
  deriving DecidableEq, Repr

/-- A call the CORE makes to the host (spec/52 R1130). -/
inductive HostCall
  /-- `emit_pixel(b)`. -/
  | emitPixel (b : Byte)
  /-- `present_frame()`. -/
  | presentFrame
  /-- `poll_button(i)`. -/
  | pollButton (i : Nat)
  /-- `trace` of a read of an unmapped address (spec/20 R201). -/
  | traceRead (a : Word)
  /-- `trace` of a write to an unmapped address (spec/20 R201). -/
  | traceWrite (a : Word)
  deriving DecidableEq, Repr

/-- The host interface (R132, R122, R172; spec/52 R1130). -/
structure HostSide where
  /-- R132. -/
  run : Bool
  /-- R122. -/
  irqLine : Bool
  /-- R172. -/
  sinkReady : Bool
  /-- What the host sets before the coming steps, the next first; with none listed the levels stay as they are and no reset is
  requested (the model's own field, log 5). -/
  inputs : List HostInput
  /-- The host's answers to the coming calls of `poll_button`, the next first; past the last of them the answer is
  `Config.freeButton` (the model's own field, log 6). -/
  buttons : List Bool
  /-- How many answers have been drawn from `Config.freeButton` (the model's own field, log 6). -/
  polls : Nat
  /-- The calls made to the host in the last step, the first made first (the model's own field, log 7). -/
  calls : List HostCall
  deriving DecidableEq, Repr

end Sys2Proof.Machine

namespace Sys2Proof.Machine

/-- The machine (spec/10). -/
structure State where
  /-- The parameters (spec/00 R9); no step writes them. -/
  cfg : Config
  cpu : Cpu
  ppu : Ppu
  /-- R120. -/
  nmiLine : Bool
  /-- R160. -/
  wram : Memory
  /-- R160. -/
  prg : Memory
  /-- R170. -/
  dotsTotal : Nat
  /-- R171. -/
  wq : List QueuedWrite
  pad : Pad
  host : HostSide
  deriving DecidableEq, Repr

/-- A cartridge image (spec/00 R9, spec/60 R1245). -/
structure Cartridge where
  banks : PrgBanks
  prg : Memory
  chr : Memory
  mirroring : Mirroring
  deriving DecidableEq, Repr

/-- R1245: a machine is constructed only from an image whose parts have their sizes. -/
def Cartridge.valid (c : Cartridge) : Bool := c.prg.ok (prgSize c.banks) && c.chr.ok chrSize

/-- The image with no byte given: 16 KB of program and 8 KB of pattern bytes, all as unlisted addresses read
(DESIGN CHOICE, log 2). -/
def Cartridge.blank : Cartridge where
  banks := .one
  prg := []
  chr := []
  mirroring := .horizontal

/-- An empty sprite slot (R152). -/
def Slot.zero : Slot where
  lo := 0
  hi := 0
  attr := 0
  xcnt := 0
  active := false

/-- The PPU with every register and pipeline at 0 and every memory blank (R140 to R152, D19). -/
def Ppu.zero : Ppu where
  ctrl := 0
  mask := 0
  vblank := false
  s0hit := false
  oamAddr := 0
  v := 0
  t := 0
  fineX := 0
  w := false
  readBuf := 0
  scanline := 0
  dot := 0
  frame := 0
  bgLo := 0
  bgHi := 0
  bgAt0 := 0
  bgAt1 := 0
  ntByte := 0
  atBits := 0
  ptLo := 0
  ptHi := 0
  spr := List.replicate 8 Slot.zero
  fetch := { sy := 0, tile := 0, attr := 0, sx := 0, lo := 0, hi := 0 }
  oam2 := []
  oam2Count := 0
  s0Next := false
  s0Cur := false
  chr := []
  ciram := []
  pal := []
  oam := []

/-- What power-on takes beside the image (spec/00 R9): the open first contents of the memories, and `INIT_REGS`, the registers
whose power-on value D19 decides. -/
structure PowerOnInit where
  wram : Memory
  ciram : Memory
  pal : Memory
  oam : Memory
  a : Byte
  x : Byte
  y : Byte
  ppu : Ppu
  deriving DecidableEq, Repr

/-- The registers at the 0 of D19, and the open memories as unlisted addresses read (log 2). -/
def PowerOnInit.zero : PowerOnInit where
  wram := []
  ciram := []
  pal := []
  oam := []
  a := 0
  x := 0
  y := 0
  ppu := Ppu.zero

/-- The host interface at power-on: running (R132), no IRQ (R122); the display sink is not ready yet (DESIGN CHOICE, log 4). -/
def HostSide.powerOn : HostSide where
  run := true
  irqLine := false
  sinkReady := false
  inputs := []
  buttons := []
  polls := 0
  calls := []

/-- A byte of the program ROM (R204). -/
def prgByte (banks : PrgBanks) (prg : Memory) (a : Word) : Byte := prg.read (prgIndex banks a)

/-- R1300: power-on from an image.  PC comes from the reset vector `$FFFC`/`$FFFD`, low byte first; nothing is pushed. -/
def State.powerOn (cfg : Config) (image : Cartridge) (init : PowerOnInit) : State where
  cfg := { cfg with prgBanks := image.banks, mirroring := image.mirroring }
  cpu :=
    { a := init.a, x := init.x, y := init.y, s := 0xFF, p := 0x24,
      pc := wordOf (prgByte image.banks image.prg 0xFFFC) (prgByte image.banks image.prg 0xFFFD),
      budget := 0, fault := none, resetPending := false }
  ppu :=
    { init.ppu with
      w := false, scanline := 0, dot := 0, frame := 0,
      chr := image.chr, ciram := init.ciram, pal := init.pal, oam := init.oam }
  nmiLine := false
  wram := init.wram
  prg := image.prg
  dotsTotal := 0
  wq := []
  pad := { strobe := false, index := 0 }
  host := HostSide.powerOn

/-- R1245: an image that is not valid gives no machine. -/
def State.powerOnChecked (cfg : Config) (image : Cartridge) (init : PowerOnInit) : Option State :=
  if image.valid then some (State.powerOn cfg image init) else none

/-- The machine right after power-on with the defaults of R9 and the blank image (R1301; log 1, log 2, log 4). -/
def State.reset : State := State.powerOn Config.default Cartridge.blank PowerOnInit.zero

end Sys2Proof.Machine
end

