-- ==== Sys2Proof/Machine/Cycles.lean ====
section
/-! DEFINITION. Machine/Cycles.lean: the cycle cost an instruction hands the scheduler (spec/30 R332, R340, R341). -/

namespace Sys2Proof.Machine

/-- The base cycles and penalty class of R332 for an opcode byte; a byte that is no opcode has no cost (spec/60 R1241). -/
def tableCost (opc : Byte) : Cost :=
  match opc.toNat with
  | 0x09 | 0x0A | 0x10 | 0x18 | 0x29 | 0x2A | 0x30 | 0x38 | 0x49 | 0x4A | 0x50 | 0x58 | 0x69 | 0x6A => ⟨2, false⟩
  | 0x70 | 0x78 | 0x88 | 0x8A | 0x90 | 0x98 | 0x9A | 0xA0 | 0xA2 | 0xA8 | 0xA9 | 0xAA | 0xB0 | 0xB8 => ⟨2, false⟩
  | 0xBA | 0xC0 | 0xC8 | 0xC9 | 0xCA | 0xD0 | 0xD8 | 0xE0 | 0xE8 | 0xE9 | 0xEA | 0xF0 | 0xF8 => ⟨2, false⟩
  | 0x05 | 0x08 | 0x24 | 0x25 | 0x45 | 0x48 | 0x4C | 0x65 | 0x84 | 0x85 | 0x86 | 0xA4 | 0xA5 | 0xA6 => ⟨3, false⟩
  | 0xC4 | 0xC5 | 0xE4 | 0xE5 => ⟨3, false⟩
  | 0x0D | 0x15 | 0x28 | 0x2C | 0x2D | 0x35 | 0x4D | 0x55 | 0x68 | 0x6D | 0x75 | 0x8C | 0x8D | 0x8E => ⟨4, false⟩
  | 0x94 | 0x95 | 0x96 | 0xAC | 0xAD | 0xAE | 0xB4 | 0xB5 | 0xB6 | 0xCC | 0xCD | 0xD5 | 0xEC | 0xED => ⟨4, false⟩
  | 0xF5 => ⟨4, false⟩
  | 0x19 | 0x1D | 0x39 | 0x3D | 0x59 | 0x5D | 0x79 | 0x7D | 0xB9 | 0xBC | 0xBD | 0xBE | 0xD9 | 0xDD => ⟨4, true⟩
  | 0xF9 | 0xFD => ⟨4, true⟩
  | 0x06 | 0x26 | 0x46 | 0x66 | 0x6C | 0x99 | 0x9D | 0xC6 | 0xE6 | 0xE7 => ⟨5, false⟩
  | 0x11 | 0x31 | 0x51 | 0x71 | 0xB1 | 0xD1 | 0xF1 => ⟨5, true⟩
  | 0x01 | 0x0E | 0x16 | 0x20 | 0x21 | 0x2E | 0x36 | 0x40 | 0x41 | 0x4E | 0x56 | 0x60 | 0x61 | 0x6E => ⟨6, false⟩
  | 0x76 | 0x81 | 0x91 | 0xA1 | 0xC1 | 0xCE | 0xD6 | 0xE1 | 0xEE | 0xEF | 0xF6 | 0xF7 => ⟨6, false⟩
  | 0x00 | 0x1E | 0x3E | 0x5E | 0x7E | 0xDE | 0xFB | 0xFE | 0xFF => ⟨7, false⟩
  | 0xE3 | 0xF3 => ⟨8, false⟩
  | _ => ⟨0, false⟩

/-- `CYCLE_COST` (spec/00 R9): the parameter's own row for the opcode where it gives one, else the table's (log 15). -/
def costOf (cfg : Config) (opc : Byte) : Cost := (cfg.cycleOverrides.lookup opc).getD (tableCost opc)

/-- R340, R341: the base cycles, and one more when an opcode of class `p` crossed a page. -/
def cyclesOf (cfg : Config) (opc : Byte) (pen : Bool) : Nat :=
  (costOf cfg opc).base + if (costOf cfg opc).paged && pen then 1 else 0

/-- R750: a branch costs its base, one more when taken, and one more again when its target is on another page. -/
def branchCycles (cfg : Config) (opc : Byte) (taken pen : Bool) : Nat :=
  (costOf cfg opc).base + if taken then (if pen then 2 else 1) else 0

end Sys2Proof.Machine
end

