-- ==== Sys2Proof/Machine/Flags.lean ====
section
/-! DEFINITION. Machine/Flags.lean: the bits of `P` (spec/10 R110 to R112), and the adder and the comparison that write
them (spec/46 R700, R702). -/

namespace Sys2Proof.Machine

/-- The bits of `P` (R110).  `b` and `u` are bits 4 and 5, which a live `P` holds at 0 and 1 (R111). -/
inductive Flag
  | c
  | z
  | i
  | d
  | b
  | u
  | v
  | n
  deriving DecidableEq, Repr

/-- A flag's place in `P` (R110). -/
def Flag.bit : Flag → Nat
  | .c => 0
  | .z => 1
  | .i => 2
  | .d => 3
  | .b => 4
  | .u => 5
  | .v => 6
  | .n => 7

/-- The byte with only the flag's bit set. -/
def Flag.mask (f : Flag) : Byte := 1#8 <<< f.bit

/-- Whether a flag is set. -/
def getFlag (f : Flag) (p : Byte) : Bool := p.getLsbD f.bit

/-- `P` with one flag written. -/
def setFlag (f : Flag) (on : Bool) (p : Byte) : Byte := if on then p ||| f.mask else p &&& ~~~f.mask

/-- R112: N is bit 7 of the result, Z says that it is 0. -/
def setNZ (r : Byte) (p : Byte) : Byte := setFlag .n r.msb (setFlag .z (r == 0) p)

/-- R504, R790: the copy of `P` that PHP and BRK push, bits 4 and 5 set. -/
def pushedByProgram (p : Byte) : Byte := p ||| 0x30

/-- R1210: the copy of `P` that interrupt service pushes, bit 4 clear and bit 5 set. -/
def pushedByService (p : Byte) : Byte := (p &&& ~~~0x10#8) ||| 0x20

/-- R111: what PLP and RTI store in `P` of a pulled byte. -/
def pulledStatus (b : Byte) : Byte := (b &&& 0xCF) ||| 0x20

/-- The result byte, the carry and the overflow of the adder. -/
structure Sum where
  r : Byte
  carry : Bool
  overflow : Bool
  deriving DecidableEq, Repr

/-- R700: the sum on unbounded integers, narrowed; the carry out of bit 7; the overflow when the operands have one sign and the
result the other. -/
def addWithCarry (a m : Byte) (c : Bool) : Sum :=
  let s := a.toNat + m.toNat + c.toNat
  let r := BitVec.ofNat 8 s
  { r := r, carry := decide (s > 255), overflow := ((a ^^^ r) &&& (m ^^^ r) &&& 0x80) != 0 }

/-- R700: `P` after the adder. -/
def addFlags (t : Sum) (p : Byte) : Byte := setNZ t.r (setFlag .v t.overflow (setFlag .c t.carry p))

/-- R702: `P` after a comparison of a register with an operand. -/
def compareFlags (r m p : Byte) : Byte :=
  setFlag .n (r - m).msb (setFlag .z (r == m) (setFlag .c (decide (m.toNat ≤ r.toNat)) p))

/-- R554: `P` after BIT: Z from `A & m`, V and N from bits 6 and 7 of the operand. -/
def bitFlags (a m p : Byte) : Byte :=
  setFlag .n (m.getLsbD 7) (setFlag .v (m.getLsbD 6) (setFlag .z ((a &&& m) == 0) p))

end Sys2Proof.Machine
end

