-- ==== Sys2Proof/Machine/PpuRegs.lean ====
section
/-! DEFINITION. Machine/PpuRegs.lean: the PPU's own bus (spec/20 R240 to R243), the fields of `v` and `t` (spec/10 R144) and the eight
register handlers (spec/51). -/

namespace Sys2Proof.Machine

/-- R240: the PPU bus is 14 bits wide; every address is first reduced to them. -/
def ppuAddr (a : Word) : Word := a &&& 0x3FFF

/-- R240: one read of the PPU bus. -/
def ppuRead (mir : Mirroring) (a : Word) (q : Ppu) : Byte :=
  let a := ppuAddr a
  if a ≤ 0x1FFF then q.chr.read a.toNat
  else if a ≤ 0x3EFF then q.ciram.read (ntIndex mir a)
  else q.pal.read (palIndex a)

/-- R240: one write of the PPU bus; pattern memory is writable (R243). -/
def ppuWrite (mir : Mirroring) (a : Word) (b : Byte) (q : Ppu) : Ppu :=
  let a := ppuAddr a
  if a ≤ 0x1FFF then { q with chr := q.chr.write a.toNat b }
  else if a ≤ 0x3EFF then { q with ciram := q.ciram.write (ntIndex mir a) b }
  else { q with pal := q.pal.write (palIndex a) b }

/-- R144: `v` or `t` as a bus address. -/
def vramWord (v : VramReg) : Word := v.setWidth 16

/-- R144: bits 4..0. -/
def coarseX (v : VramReg) : BitVec 5 := v.extractLsb' 0 5

/-- R144: bits 9..5. -/
def coarseY (v : VramReg) : BitVec 5 := v.extractLsb' 5 5

/-- R144: bits 11..10. -/
def ntSelect (v : VramReg) : BitVec 2 := v.extractLsb' 10 2

/-- R144: bits 14..12. -/
def fineY (v : VramReg) : BitVec 3 := v.extractLsb' 12 3

/-- R144: `pack`. -/
def packVram (cx cy : BitVec 5) (nt : BitVec 2) (fy : BitVec 3) : VramReg := (fy ++ nt ++ cy ++ cx : BitVec (3 + 2 + 5 + 5))

/-- A bit of a control register. -/
def regBit (r : Byte) (i : Nat) : Bool := r.getLsbD i

/-- R1075: the address step of `$2007`. -/
def vramStep (q : Ppu) : VramReg := if regBit q.ctrl 2 then 32 else 1

/-- R1070, R1071: `v` after a `$2007` access. -/
def stepVram (q : Ppu) : Ppu := { q with v := q.v + vramStep q }

/-- R1020: the byte of `$2002`. -/
def statusByte (q : Ppu) : Byte := (if q.vblank then 0x80 else 0) ||| (if q.s0hit then 0x40 else 0)

/-- R1020: the read of `$2002`. -/
def statusRead (q : Ppu) : Byte × Ppu := (statusByte q, { q with vblank := false, w := false })

/-- R1070: the read of `$2007`: buffered below `$3F00`, immediate in the palette. -/
def dataRead (mir : Mirroring) (q : Ppu) : Byte × Ppu :=
  let a := ppuAddr (vramWord q.v)
  let b := ppuRead mir a q
  if a < 0x3F00 then (q.readBuf, stepVram { q with readBuf := b }) else (b, stepVram q)

/-- R1001, R1002: a read of a register of the window. -/
def ppuRegRead (mir : Mirroring) (r : RegIndex) (q : Ppu) : Byte × Ppu :=
  if r = 2 then statusRead q
  else if r = 7 then dataRead mir q
  else (0, q)

/-- R1010: the write of `$2000`, without the NMI of R1011. -/
def ctrlWrite (b : Byte) (q : Ppu) : Ppu :=
  { q with ctrl := b, t := (q.t &&& ~~~0x0C00#15) ||| ((b.setWidth 15 &&& 3) <<< 10) }

/-- R1011: whether a `$2000` write raises NMI: bit 7 goes from 0 to 1 while `vblank` is set. -/
def ctrlRaisesNmi (b : Byte) (q : Ppu) : Bool := !regBit q.ctrl 7 && regBit b 7 && q.vblank

/-- R1015: the write of `$2001`. -/
def maskWrite (b : Byte) (q : Ppu) : Ppu := { q with mask := b }

/-- R1030: the write of `$2003`. -/
def oamAddrWrite (b : Byte) (q : Ppu) : Ppu := { q with oamAddr := b }

/-- R1040: the write of `$2004`. -/
def oamDataWrite (b : Byte) (q : Ppu) : Ppu :=
  { q with oam := q.oam.write q.oamAddr.toNat b, oamAddr := q.oamAddr + 1 }

/-- R1050: the write of `$2005`. -/
def scrollWrite (b : Byte) (q : Ppu) : Ppu :=
  let wide : VramReg := b.setWidth 15
  if q.w then { q with t := (q.t &&& ~~~0x73E0#15) ||| ((wide &&& 7) <<< 12) ||| ((wide >>> 3) <<< 5), w := false }
  else { q with fineX := b.setWidth 3, t := (q.t &&& ~~~0x001F#15) ||| (wide >>> 3), w := true }

/-- R1060: the write of `$2006`. -/
def addrWrite (b : Byte) (q : Ppu) : Ppu :=
  let wide : VramReg := b.setWidth 15
  if q.w then
    let t := (q.t &&& 0x7F00) ||| wide
    { q with t := t, v := t, w := false }
  else { q with t := (q.t &&& 0x00FF) ||| ((wide &&& 0x3F) <<< 8), w := true }

/-- R1071: the write of `$2007`. -/
def dataWrite (mir : Mirroring) (b : Byte) (q : Ppu) : Ppu := stepVram (ppuWrite mir (vramWord q.v) b q)

/-- R1003: a register write takes effect on the PPU. -/
def ppuRegWrite (mir : Mirroring) (r : RegIndex) (b : Byte) (q : Ppu) : Ppu :=
  if r = 0 then ctrlWrite b q
  else if r = 1 then maskWrite b q
  else if r = 2 then q
  else if r = 3 then oamAddrWrite b q
  else if r = 4 then oamDataWrite b q
  else if r = 5 then scrollWrite b q
  else if r = 6 then addrWrite b q
  else dataWrite mir b q

/-- R1003, R1010: `ApplyRegWrite`: the register's handler, and the NMI a `$2000` write can raise. -/
def applyRegWrite (r : RegIndex) (b : Byte) (s : State) : State :=
  { s with
    ppu := ppuRegWrite s.cfg.mirroring r b s.ppu
    nmiLine := s.nmiLine || (r == 0 && ctrlRaisesNmi b s.ppu) }

/-- R1003, R1120: a processor write to the window: queued when its register is in `DELAYED_REGS`, else applied at once. -/
def issueRegWrite (r : RegIndex) (b : Byte) (s : State) : State :=
  if s.cfg.delayedRegs.contains r then
    { s with wq := s.wq ++ [{ target := s.dotsTotal + s.cfg.writeDelayDots, reg := r, byte := b }] }
  else applyRegWrite r b s

end Sys2Proof.Machine
end

