-- ==== Sys2Proof/Machine/Ops.lean ====
section
/-! DEFINITION. Machine/Ops.lean: the named operations every meaning is built from: the processor bus (spec/20), fetching (spec/30 R302), the
stack (spec/42 R500), taking an interrupt and returning from one (spec/60 R1210, spec/47 R790, R791), the decode failure (R1240) and handing over a
cost (R340). -/

namespace Sys2Proof.Machine

/-! ## The state's parts -/

/-- A change of the processor's registers alone. -/
def State.mapCpu (f : Cpu → Cpu) (s : State) : State := { s with cpu := f s.cpu }

/-- A change of the PPU alone. -/
def State.mapPpu (f : Ppu → Ppu) (s : State) : State := { s with ppu := f s.ppu }

/-- A call to the host (spec/52 R1130). -/
def State.call (c : HostCall) (s : State) : State := { s with host := { s.host with calls := s.host.calls ++ [c] } }

/-- PC written (spec/00 R12). -/
def State.setPc (pc : Word) (s : State) : State := s.mapCpu fun c => { c with pc := pc }

/-! ## The controller port (R212) -/

/-- `poll_button(line)`: the host's next listed answer, or a draw when it has listed none (D46, log 6). -/
def pollButton (line : Nat) (s : State) : Bool × State :=
  let t := s.call (.pollButton line)
  match t.host.buttons with
  | b :: rest => (b, { t with host := { t.host with buttons := rest } })
  | [] => (Config.freeButton t.host.polls line, { t with host := { t.host with polls := t.host.polls + 1 } })

/-- A Boolean as a byte, `zext` (R212). -/
def byteOfBool (b : Bool) : Byte := if b then 1 else 0

/-- R212: the read of `$4016`. -/
def padRead (s : State) : Byte × State :=
  if s.pad.strobe then
    let r := pollButton 0 s
    (byteOfBool r.1, r.2)
  else if s.pad.index < 8 then
    let r := pollButton s.pad.index s
    (byteOfBool r.1, { r.2 with pad := { r.2.pad with index := r.2.pad.index + 1 } })
  else (1, s)

/-- R212: the write of `$4016`. -/
def padWrite (b : Byte) (s : State) : State :=
  { s with pad := { strobe := b.getLsbD 0, index := if b.getLsbD 0 then 0 else s.pad.index } }

/-! ## The processor bus (R201) -/

/-- The register a window address reaches, `a & 7` (R203). -/
def regIndex (a : Word) : RegIndex := a.setWidth 3

/-- What an address of the processor bus reaches (R201, R232). -/
inductive Device
  | wram
  | ppu
  | pad
  | unmapped
  | rom
  deriving DecidableEq, Repr

/-- The dispatch of R201. -/
def deviceOf (cfg : Config) (a : Word) : Device :=
  if a ≤ 0x1FFF then .wram
  else if a ≤ 0x3FFF then .ppu
  else if a = 0x4016 ∧ cfg.controller = .standard then .pad
  else if a ≤ 0x7FFF then .unmapped
  else .rom

/-- R201: one read of the processor bus, with its side effects (R207). -/
def busRead (a : Word) (s : State) : Byte × State :=
  match deviceOf s.cfg a with
  | .wram => (s.wram.read (wramIndex a), s)
  | .ppu =>
    let r := ppuRegRead s.cfg.mirroring (regIndex a) s.ppu
    (r.1, { s with ppu := r.2 })
  | .pad => padRead s
  | .unmapped => (0, s.call (.traceRead a))
  | .rom => (s.prg.read (prgIndex s.cfg.prgBanks a), s)

/-- R201: one write of the processor bus. -/
def busWrite (a : Word) (b : Byte) (s : State) : State :=
  match deviceOf s.cfg a with
  | .wram => { s with wram := s.wram.write (wramIndex a) b }
  | .ppu => issueRegWrite (regIndex a) b s
  | .pad => padWrite b s
  | .unmapped => s.call (.traceWrite a)
  | .rom => s

/-- R230: two reads, the low byte first; the second address is the next modulo 2^16. -/
def busRead16 (a : Word) (s : State) : Word × State :=
  let l := busRead a s
  let h := busRead (a + 1) l.2
  (wordOf l.1 h.1, h.2)

/-- The byte work RAM or program ROM holds at an address, looked at without a bus access; 0 at an address with no memory
behind it.  For statements and tools only; no instruction uses it. -/
def peek (a : Word) (s : State) : Byte :=
  match deviceOf s.cfg a with
  | .wram => s.wram.read (wramIndex a)
  | .rom => s.prg.read (prgIndex s.cfg.prgBanks a)
  | .ppu => 0
  | .pad => 0
  | .unmapped => 0

/-! ## Fetching (R302) -/

/-- R302: the byte at PC, and PC past it. -/
def fetchByte (s : State) : Byte × State :=
  let r := busRead s.cpu.pc s
  (r.1, r.2.setPc (s.cpu.pc + 1))

/-- R303, R300: the opcode, then as many operand bytes as its length says, in order; the instruction they are. -/
def fetchInstr (s : State) : Instr × State :=
  let o := fetchByte s
  match instrLength s.cfg o.1 with
  | 2 =>
    let b := fetchByte o.2
    (decodeOp s.cfg o.1 b.1 0, b.2)
  | 3 =>
    let b := fetchByte o.2
    let c := fetchByte b.2
    (decodeOp s.cfg o.1 b.1 c.1, c.2)
  | _ => (decodeOp s.cfg o.1 0 0, o.2)

/-! ## The stack (R500) -/

/-- R103: the stack byte `S` designates, `$0100 | S`. -/
def stackAddr (sp : Byte) : Word := 0x0100 ||| zext16 sp

/-- R500: `Push`. -/
def push (b : Byte) (s : State) : State :=
  (busWrite (stackAddr s.cpu.s) b s).mapCpu fun c => { c with s := c.s - 1 }

/-- R500: `Pull`. -/
def pull (s : State) : Byte × State :=
  let t := s.mapCpu fun c => { c with s := c.s + 1 }
  busRead (stackAddr t.cpu.s) t

/-- R500: `Push16`, the high byte first. -/
def push16 (w : Word) (s : State) : State := push (lowByte w) (push (highByte w) s)

/-- R500: `Pull16`, the low byte first. -/
def pull16 (s : State) : Word × State :=
  let l := pull s
  let h := pull l.2
  (wordOf l.1 h.1, h.2)

/-! ## Costs (R340) -/

/-- The cost handed to the scheduler, which the tick counts down (R1110; log 17). -/
def State.charge (n : Nat) (s : State) : State := s.mapCpu fun c => { c with budget := n }

/-! ## Taking an interrupt and returning from one -/

/-- R232: where the vectors lie. -/
def nmiVector : Word := 0xFFFA
/-- R232. -/
def resetVector : Word := 0xFFFC
/-- R232. -/
def irqVector : Word := 0xFFFE

/-- The entry that interrupt service and BRK share (R1210, R790): the return address is pushed, then a copy of `P`; `I` is set; PC is read from
the vector. -/
def enterInterrupt (ret : Word) (pushed : Byte) (vector : Word) (s : State) : State :=
  let t := (push pushed (push16 ret s)).mapCpu fun c => { c with p := setFlag .i true c.p }
  let r := busRead16 vector t
  r.2.setPc r.1

/-- The three interrupt sources (R1205). -/
inductive IntKind
  | nmi
  | reset
  | irq
  deriving DecidableEq, Repr

/-- R1205: each source's vector. -/
def IntKind.vector : IntKind → Word
  | .nmi => nmiVector
  | .reset => resetVector
  | .irq => irqVector

/-- R1210: what the service clears: the line of an NMI, the request of a reset, nothing of an IRQ. -/
def acknowledge (k : IntKind) (s : State) : State :=
  match k with
  | .nmi => { s with nmiLine := false }
  | .reset => s.mapCpu fun c => { c with resetPending := false }
  | .irq => s

/-- R1210, R1211: interrupt service. -/
def service (k : IntKind) (s : State) : State :=
  (enterInterrupt s.cpu.pc (pushedByService s.cpu.p) k.vector (acknowledge k s)).charge s.cfg.interruptCost

/-- R791, R1220: the return: the status first, then PC, with no `+ 1`. -/
def returnFromInterrupt (s : State) : State :=
  let b := pull s
  let w := pull16 (b.2.mapCpu fun c => { c with p := pulledStatus b.1 })
  w.2.setPc w.1

/-- R1240: `raise DecodeFailure(opc, opaddr)`: PC back at the opcode, the failure recorded, nothing else. -/
def raiseDecodeFailure (opc : Byte) (addr : Word) (s : State) : State :=
  s.mapCpu fun c => { c with pc := addr, fault := some { opcode := opc, addr := addr } }

end Sys2Proof.Machine
end

