-- ==== Sys2Proof/Machine/Operands.lean ====
section
/-! DEFINITION. Machine/Operands.lean: the addressing modes (spec/30 R310 to R323), and the shapes in which an instruction reads and writes its
operand (R310, R322, spec/00 R14). -/

namespace Sys2Proof.Machine

/-- R310: what a mode resolves to.  `imm` holds the byte after the opcode, which the fetch has read (R313; log 13). -/
inductive Operand
  | none
  | acc
  | imm (v : Byte)
  | mem (ea : Word)
  | target (t : Word)
  deriving DecidableEq, Repr

/-- What resolving gives: the operand, the page-crossing indicator, and the state after the pointer reads (R310). -/
structure Resolved where
  op : Operand
  pen : Bool
  st : State
  deriving DecidableEq, Repr

/-- R320: the page indicator: bits 15..8 of the two addresses differ. -/
def pageCrossed (base ea : Word) : Bool := (base &&& 0xFF00) != (ea &&& 0xFF00)

/-- R315, R316: a zero-page address plus an index, wrapped within page zero. -/
def zeroPageIndexed (a index : Byte) : Word := zext16 (a + index)

/-- R320: an absolute address plus an index, modulo 2^16. -/
def absIndexed (a : Word) (index : Byte) : Word := a + zext16 index

/-- R317, R318: the 16-bit pointer at a zero-page address, both bytes in page zero, the low one read first. -/
def zeroPagePointer (p : Byte) (s : State) : Word × State :=
  let l := busRead (zext16 p) s
  let h := busRead (zext16 (p + 1)) l.2
  (wordOf l.1 h.1, h.2)

/-- R321: where the high byte of JMP's pointer is read. -/
def indirectHigh (cfg : Config) (ptr : Word) : Word :=
  if cfg.jmpIndPageWrap then (ptr &&& 0xFF00) ||| ((ptr + 1) &&& 0x00FF) else ptr + 1

/-- R321: the target behind JMP's pointer. -/
def indirectTarget (ptr : Word) (s : State) : Word × State :=
  let l := busRead ptr s
  let h := busRead (indirectHigh s.cfg ptr) l.2
  (wordOf l.1 h.1, h.2)

/-- R323: a branch's target; PC is past the branch. -/
def branchTarget (d : Byte) (s : State) : Word := s.cpu.pc + sext16 d

/-- R311 to R323: a mode resolved, the operand bytes fetched. -/
def resolve (m : Mode) (s : State) : Resolved :=
  match m with
  | .implied => ⟨.none, false, s⟩
  | .acc => ⟨.acc, false, s⟩
  | .imm v => ⟨.imm v, false, s⟩
  | .zp a => ⟨.mem (zext16 a), false, s⟩
  | .zpx a => ⟨.mem (zeroPageIndexed a s.cpu.x), false, s⟩
  | .zpy a => ⟨.mem (zeroPageIndexed a s.cpu.y), false, s⟩
  | .izx a =>
    let p := zeroPagePointer (a + s.cpu.x) s
    ⟨.mem p.1, false, p.2⟩
  | .izy a =>
    let p := zeroPagePointer a s
    ⟨.mem (absIndexed p.1 s.cpu.y), pageCrossed p.1 (absIndexed p.1 s.cpu.y), p.2⟩
  | .abs a => ⟨.mem a, false, s⟩
  | .absx a => ⟨.mem (absIndexed a s.cpu.x), pageCrossed a (absIndexed a s.cpu.x), s⟩
  | .absy a => ⟨.mem (absIndexed a s.cpu.y), pageCrossed a (absIndexed a s.cpu.y), s⟩
  | .ind a =>
    let p := indirectTarget a s
    ⟨.mem p.1, false, p.2⟩
  | .rel d => ⟨.target (branchTarget d s), pageCrossed s.cpu.pc (branchTarget d s), s⟩

/-- R310: `Load(op)`.  A mode with no operand is loaded by no instruction. -/
def load (op : Operand) (s : State) : Byte × State :=
  match op with
  | .acc => (s.cpu.a, s)
  | .imm v => (v, s)
  | .mem ea => busRead ea s
  | .none => (0, s)
  | .target _ => (0, s)

/-- R310: `Store(op, b)`. -/
def store (op : Operand) (b : Byte) (s : State) : State :=
  match op with
  | .acc => s.mapCpu fun c => { c with a := b }
  | .mem ea => busWrite ea b s
  | .none => s
  | .imm _ => s
  | .target _ => s

/-- An outcome of a meaning. -/
abbrev Result := Host.Outcome State Fault Refusal

/-- An instruction that reads its operand once and writes registers (R400, R550, R705): the effect is on the processor alone. -/
def readInstr (opc : Byte) (m : Mode) (effect : Byte → Cpu → Cpu) (s : State) : Result :=
  let r := resolve m s
  let b := load r.op r.st
  .next ((b.2.mapCpu (effect b.1)).charge (cyclesOf s.cfg opc r.pen))

/-- An instruction that writes a register's value to its operand once, and reads nothing there (R400). -/
def storeInstr (opc : Byte) (m : Mode) (reg : Cpu → Byte) (s : State) : Result :=
  let r := resolve m s
  .next ((store r.op (reg r.st.cpu) r.st).charge (cyclesOf s.cfg opc r.pen))

/-- A read-modify-write instruction (R252, R600, R650): one read, one write of the new value, then the effect on the registers. -/
def modifyInstr (opc : Byte) (m : Mode) (value : Byte → Cpu → Byte) (effect : Byte → Cpu → Cpu) (s : State) : Result :=
  let r := resolve m s
  let b := load r.op r.st
  let t := store r.op (value b.1 b.2.cpu) b.2
  .next ((t.mapCpu (effect b.1)).charge (cyclesOf s.cfg opc r.pen))

/-- An instruction on registers alone (R450, R600, R800). -/
def registerInstr (opc : Byte) (effect : Cpu → Cpu) (s : State) : Result :=
  .next ((s.mapCpu effect).charge (cyclesOf s.cfg opc false))

/-- R750: a branch. -/
def branchInstr (opc : Byte) (d : Byte) (taken : Bool) (s : State) : Result :=
  let t := branchTarget d s
  .next ((if taken then s.setPc t else s).charge (branchCycles s.cfg opc taken (pageCrossed s.cpu.pc t)))

end Sys2Proof.Machine
end

