-- ==== Sys2Proof/Machine/Arith.lean ====
section
/-! DEFINITION. Machine/Arith.lean: addition, subtraction and comparison (spec/46 R700 to R717). -/

namespace Sys2Proof.Machine

/-- R700: the adder's effect: A and the flags C, V, N, Z. -/
def addA (m : Byte) (c : Cpu) : Cpu :=
  let t := addWithCarry c.a m (getFlag .c c.p)
  { c with a := t.r, p := addFlags t c.p }

/-- R710: subtraction is the adder on the operand's complement. -/
def subA (m : Byte) (c : Cpu) : Cpu := addA (m ^^^ 0xFF) c

/-- R715: the effect of CMP. -/
def compareA (m : Byte) (c : Cpu) : Cpu := { c with p := compareFlags c.a m c.p }

/-- R716: the effect of CPX. -/
def compareX (m : Byte) (c : Cpu) : Cpu := { c with p := compareFlags c.x m c.p }

/-- R717: the effect of CPY. -/
def compareY (m : Byte) (c : Cpu) : Cpu := { c with p := compareFlags c.y m c.p }

/-- R705: `ADC ($nn,X)`. -/
def execAdcIzx (a : Byte) (s : State) : Result := readInstr 0x61 (.izx a) addA s

/-- R705: `ADC $nn`. -/
def execAdcZp (a : Byte) (s : State) : Result := readInstr 0x65 (.zp a) addA s

/-- R705: `ADC #$nn`. -/
def execAdcImm (v : Byte) (s : State) : Result := readInstr 0x69 (.imm v) addA s

/-- R705: `ADC $nnnn`. -/
def execAdcAbs (a : Word) (s : State) : Result := readInstr 0x6D (.abs a) addA s

/-- R705: `ADC ($nn),Y`. -/
def execAdcIzy (a : Byte) (s : State) : Result := readInstr 0x71 (.izy a) addA s

/-- R705: `ADC $nn,X`. -/
def execAdcZpx (a : Byte) (s : State) : Result := readInstr 0x75 (.zpx a) addA s

/-- R705: `ADC $nnnn,Y`. -/
def execAdcAbsy (a : Word) (s : State) : Result := readInstr 0x79 (.absy a) addA s

/-- R705: `ADC $nnnn,X`. -/
def execAdcAbsx (a : Word) (s : State) : Result := readInstr 0x7D (.absx a) addA s

/-- R710: `SBC ($nn,X)`. -/
def execSbcIzx (a : Byte) (s : State) : Result := readInstr 0xE1 (.izx a) subA s

/-- R710: `SBC $nn`. -/
def execSbcZp (a : Byte) (s : State) : Result := readInstr 0xE5 (.zp a) subA s

/-- R710: `SBC #$nn`. -/
def execSbcImm (v : Byte) (s : State) : Result := readInstr 0xE9 (.imm v) subA s

/-- R710: `SBC $nnnn`. -/
def execSbcAbs (a : Word) (s : State) : Result := readInstr 0xED (.abs a) subA s

/-- R710: `SBC ($nn),Y`. -/
def execSbcIzy (a : Byte) (s : State) : Result := readInstr 0xF1 (.izy a) subA s

/-- R710: `SBC $nn,X`. -/
def execSbcZpx (a : Byte) (s : State) : Result := readInstr 0xF5 (.zpx a) subA s

/-- R710: `SBC $nnnn,Y`. -/
def execSbcAbsy (a : Word) (s : State) : Result := readInstr 0xF9 (.absy a) subA s

/-- R710: `SBC $nnnn,X`. -/
def execSbcAbsx (a : Word) (s : State) : Result := readInstr 0xFD (.absx a) subA s

/-- R715: `CMP ($nn,X)`. -/
def execCmpIzx (a : Byte) (s : State) : Result := readInstr 0xC1 (.izx a) compareA s

/-- R715: `CMP $nn`. -/
def execCmpZp (a : Byte) (s : State) : Result := readInstr 0xC5 (.zp a) compareA s

/-- R715: `CMP #$nn`. -/
def execCmpImm (v : Byte) (s : State) : Result := readInstr 0xC9 (.imm v) compareA s

/-- R715: `CMP $nnnn`. -/
def execCmpAbs (a : Word) (s : State) : Result := readInstr 0xCD (.abs a) compareA s

/-- R715: `CMP ($nn),Y`. -/
def execCmpIzy (a : Byte) (s : State) : Result := readInstr 0xD1 (.izy a) compareA s

/-- R715: `CMP $nn,X`. -/
def execCmpZpx (a : Byte) (s : State) : Result := readInstr 0xD5 (.zpx a) compareA s

/-- R715: `CMP $nnnn,Y`. -/
def execCmpAbsy (a : Word) (s : State) : Result := readInstr 0xD9 (.absy a) compareA s

/-- R715: `CMP $nnnn,X`. -/
def execCmpAbsx (a : Word) (s : State) : Result := readInstr 0xDD (.absx a) compareA s

/-- R716: `CPX #$nn`. -/
def execCpxImm (v : Byte) (s : State) : Result := readInstr 0xE0 (.imm v) compareX s

/-- R716: `CPX $nn`. -/
def execCpxZp (a : Byte) (s : State) : Result := readInstr 0xE4 (.zp a) compareX s

/-- R716: `CPX $nnnn`. -/
def execCpxAbs (a : Word) (s : State) : Result := readInstr 0xEC (.abs a) compareX s

/-- R717: `CPY #$nn`. -/
def execCpyImm (v : Byte) (s : State) : Result := readInstr 0xC0 (.imm v) compareY s

/-- R717: `CPY $nn`. -/
def execCpyZp (a : Byte) (s : State) : Result := readInstr 0xC4 (.zp a) compareY s

/-- R717: `CPY $nnnn`. -/
def execCpyAbs (a : Word) (s : State) : Result := readInstr 0xCC (.abs a) compareY s

end Sys2Proof.Machine
end

