-- ==== Sys2Proof/Machine/Control.lean ====
section
/-! DEFINITION. Machine/Control.lean: the branches, jumps, calls and returns (spec/47 R750 to R791). -/

namespace Sys2Proof.Machine

/-- R751: `BPL label`. -/
def execBpl (d : Byte) (s : State) : Result := branchInstr 0x10 d (!getFlag .n s.cpu.p) s

/-- R752: `BMI label`. -/
def execBmi (d : Byte) (s : State) : Result := branchInstr 0x30 d (getFlag .n s.cpu.p) s

/-- R753: `BVC label`. -/
def execBvc (d : Byte) (s : State) : Result := branchInstr 0x50 d (!getFlag .v s.cpu.p) s

/-- R754: `BVS label`. -/
def execBvs (d : Byte) (s : State) : Result := branchInstr 0x70 d (getFlag .v s.cpu.p) s

/-- R755: `BCC label`. -/
def execBcc (d : Byte) (s : State) : Result := branchInstr 0x90 d (!getFlag .c s.cpu.p) s

/-- R756: `BCS label`. -/
def execBcs (d : Byte) (s : State) : Result := branchInstr 0xB0 d (getFlag .c s.cpu.p) s

/-- R757: `BNE label`. -/
def execBne (d : Byte) (s : State) : Result := branchInstr 0xD0 d (!getFlag .z s.cpu.p) s

/-- R758: `BEQ label`. -/
def execBeq (d : Byte) (s : State) : Result := branchInstr 0xF0 d (getFlag .z s.cpu.p) s

/-- R760: `JMP $nnnn`. -/
def execJmpAbs (a : Word) (s : State) : Result := .next ((s.setPc a).charge (cyclesOf s.cfg 0x4C false))

/-- R760: `JMP ($nnnn)`. -/
def execJmpInd (a : Word) (s : State) : Result :=
  let t := indirectTarget a s
  .next ((t.2.setPc t.1).charge (cyclesOf s.cfg 0x6C false))

/-- R765: `JSR $nnnn`. -/
def execJsr (a : Word) (s : State) : Result :=
  .next (((push16 (s.cpu.pc - 1) s).setPc a).charge (cyclesOf s.cfg 0x20 false))

/-- R766: `RTS`. -/
def execRts (s : State) : Result :=
  let w := pull16 s
  .next ((w.2.setPc (w.1 + 1)).charge (cyclesOf s.cfg 0x60 false))

/-- R790: `BRK`. -/
def execBrk (s : State) : Result :=
  .next ((enterInterrupt (s.cpu.pc + 1) (pushedByProgram s.cpu.p) irqVector s).charge (cyclesOf s.cfg 0x00 false))

/-- R791: `RTI`. -/
def execRti (s : State) : Result := .next ((returnFromInterrupt s).charge (cyclesOf s.cfg 0x40 false))

end Sys2Proof.Machine
end

