-- ==== Sys2Proof/Machine/FlagNop.lean ====
section
/-! DEFINITION. Machine/FlagNop.lean: the flag instructions and NOP (spec/48 R800 to R810). -/

namespace Sys2Proof.Machine

/-- R800: one bit of `P` written. -/
def writeFlag (f : Flag) (on : Bool) (c : Cpu) : Cpu := { c with p := setFlag f on c.p }

/-- R801: `CLC`. -/
def execClc (s : State) : Result := registerInstr 0x18 (writeFlag .c false) s

/-- R802: `SEC`. -/
def execSec (s : State) : Result := registerInstr 0x38 (writeFlag .c true) s

/-- R803: `CLI`. -/
def execCli (s : State) : Result := registerInstr 0x58 (writeFlag .i false) s

/-- R804: `SEI`. -/
def execSei (s : State) : Result := registerInstr 0x78 (writeFlag .i true) s

/-- R805: `CLV`. -/
def execClv (s : State) : Result := registerInstr 0xB8 (writeFlag .v false) s

/-- R806: `CLD`. -/
def execCld (s : State) : Result := registerInstr 0xD8 (writeFlag .d false) s

/-- R807: `SED`. -/
def execSed (s : State) : Result := registerInstr 0xF8 (writeFlag .d true) s

/-- R810: `NOP`. -/
def execNop (s : State) : Result := registerInstr 0xEA id s

end Sys2Proof.Machine
end

