-- ==== Sys2Proof/Machine/Illegal.lean ====
section
/-! DEFINITION. Machine/Illegal.lean: the one admitted illegal opcode, ISC (spec/48 R820), and the decode failure (spec/60 R1240). -/

namespace Sys2Proof.Machine

/-- R820: the INC half's result. -/
def iscValue (m : Byte) (_ : Cpu) : Byte := m + 1

/-- R820: the SBC half, on the incremented byte. -/
def iscEffect (m : Byte) (c : Cpu) : Cpu := addA ((m + 1) ^^^ 0xFF) c

/-- R820: `ISC ($nn,X)`. -/
def execIscIzx (a : Byte) (s : State) : Result := modifyInstr 0xE3 (.izx a) iscValue iscEffect s

/-- R820: `ISC $nn`. -/
def execIscZp (a : Byte) (s : State) : Result := modifyInstr 0xE7 (.zp a) iscValue iscEffect s

/-- R820: `ISC $nnnn`. -/
def execIscAbs (a : Word) (s : State) : Result := modifyInstr 0xEF (.abs a) iscValue iscEffect s

/-- R820: `ISC ($nn),Y`. -/
def execIscIzy (a : Byte) (s : State) : Result := modifyInstr 0xF3 (.izy a) iscValue iscEffect s

/-- R820: `ISC $nn,X`. -/
def execIscZpx (a : Byte) (s : State) : Result := modifyInstr 0xF7 (.zpx a) iscValue iscEffect s

/-- R820: `ISC $nnnn,Y`. -/
def execIscAbsy (a : Word) (s : State) : Result := modifyInstr 0xFB (.absy a) iscValue iscEffect s

/-- R820: `ISC $nnnn,X`. -/
def execIscAbsx (a : Word) (s : State) : Result := modifyInstr 0xFF (.absx a) iscValue iscEffect s

/-- R1240: a byte that is no opcode.  The fetch has moved PC past it, so the opcode's address is one less. -/
def execDecodeFailure (opc : Byte) (s : State) : Result := .next (raiseDecodeFailure opc (s.cpu.pc - 1) s)

end Sys2Proof.Machine
end

