-- ==== Sys2Proof/Machine/IncDec.lean ====
section
/-! DEFINITION. Machine/IncDec.lean: the increments and decrements (spec/44 R600 to R606). -/

namespace Sys2Proof.Machine

/-- R600: N and Z of a result, nothing else. -/
def nzOf (r : Byte) (c : Cpu) : Cpu := { c with p := setNZ r c.p }

/-- R601: `INC $nn`. -/
def execIncZp (a : Byte) (s : State) : Result :=
  modifyInstr 0xE6 (.zp a) (fun m _ => m + 1) (fun m => nzOf (m + 1)) s

/-- R601: `INC $nnnn`. -/
def execIncAbs (a : Word) (s : State) : Result :=
  modifyInstr 0xEE (.abs a) (fun m _ => m + 1) (fun m => nzOf (m + 1)) s

/-- R601: `INC $nn,X`. -/
def execIncZpx (a : Byte) (s : State) : Result :=
  modifyInstr 0xF6 (.zpx a) (fun m _ => m + 1) (fun m => nzOf (m + 1)) s

/-- R601: `INC $nnnn,X`. -/
def execIncAbsx (a : Word) (s : State) : Result :=
  modifyInstr 0xFE (.absx a) (fun m _ => m + 1) (fun m => nzOf (m + 1)) s

/-- R602: `DEC $nn`. -/
def execDecZp (a : Byte) (s : State) : Result :=
  modifyInstr 0xC6 (.zp a) (fun m _ => m - 1) (fun m => nzOf (m - 1)) s

/-- R602: `DEC $nnnn`. -/
def execDecAbs (a : Word) (s : State) : Result :=
  modifyInstr 0xCE (.abs a) (fun m _ => m - 1) (fun m => nzOf (m - 1)) s

/-- R602: `DEC $nn,X`. -/
def execDecZpx (a : Byte) (s : State) : Result :=
  modifyInstr 0xD6 (.zpx a) (fun m _ => m - 1) (fun m => nzOf (m - 1)) s

/-- R602: `DEC $nnnn,X`. -/
def execDecAbsx (a : Word) (s : State) : Result :=
  modifyInstr 0xDE (.absx a) (fun m _ => m - 1) (fun m => nzOf (m - 1)) s

/-- R603: `INX`. -/
def execInx (s : State) : Result :=
  registerInstr 0xE8 (fun c => { c with x := c.x + 1, p := setNZ (c.x + 1) c.p }) s

/-- R604: `DEX`. -/
def execDex (s : State) : Result :=
  registerInstr 0xCA (fun c => { c with x := c.x - 1, p := setNZ (c.x - 1) c.p }) s

/-- R605: `INY`. -/
def execIny (s : State) : Result :=
  registerInstr 0xC8 (fun c => { c with y := c.y + 1, p := setNZ (c.y + 1) c.p }) s

/-- R606: `DEY`. -/
def execDey (s : State) : Result :=
  registerInstr 0x88 (fun c => { c with y := c.y - 1, p := setNZ (c.y - 1) c.p }) s

end Sys2Proof.Machine
end

