-- ==== Sys2Proof/Machine/LoadStore.lean ====
section
/-! DEFINITION. Machine/LoadStore.lean: the loads and stores (spec/40 R400 to R406). -/

namespace Sys2Proof.Machine

/-- R401: the effect of LDA. -/
def loadA (b : Byte) (c : Cpu) : Cpu := { c with a := b, p := setNZ b c.p }

/-- R402: the effect of LDX. -/
def loadX (b : Byte) (c : Cpu) : Cpu := { c with x := b, p := setNZ b c.p }

/-- R403: the effect of LDY. -/
def loadY (b : Byte) (c : Cpu) : Cpu := { c with y := b, p := setNZ b c.p }

/-- R401: `LDA ($nn,X)`. -/
def execLdaIzx (a : Byte) (s : State) : Result := readInstr 0xA1 (.izx a) loadA s

/-- R401: `LDA $nn`. -/
def execLdaZp (a : Byte) (s : State) : Result := readInstr 0xA5 (.zp a) loadA s

/-- R401: `LDA #$nn`. -/
def execLdaImm (v : Byte) (s : State) : Result := readInstr 0xA9 (.imm v) loadA s

/-- R401: `LDA $nnnn`. -/
def execLdaAbs (a : Word) (s : State) : Result := readInstr 0xAD (.abs a) loadA s

/-- R401: `LDA ($nn),Y`. -/
def execLdaIzy (a : Byte) (s : State) : Result := readInstr 0xB1 (.izy a) loadA s

/-- R401: `LDA $nn,X`. -/
def execLdaZpx (a : Byte) (s : State) : Result := readInstr 0xB5 (.zpx a) loadA s

/-- R401: `LDA $nnnn,Y`. -/
def execLdaAbsy (a : Word) (s : State) : Result := readInstr 0xB9 (.absy a) loadA s

/-- R401: `LDA $nnnn,X`. -/
def execLdaAbsx (a : Word) (s : State) : Result := readInstr 0xBD (.absx a) loadA s

/-- R402: `LDX #$nn`. -/
def execLdxImm (v : Byte) (s : State) : Result := readInstr 0xA2 (.imm v) loadX s

/-- R402: `LDX $nn`. -/
def execLdxZp (a : Byte) (s : State) : Result := readInstr 0xA6 (.zp a) loadX s

/-- R402: `LDX $nnnn`. -/
def execLdxAbs (a : Word) (s : State) : Result := readInstr 0xAE (.abs a) loadX s

/-- R402: `LDX $nn,Y`. -/
def execLdxZpy (a : Byte) (s : State) : Result := readInstr 0xB6 (.zpy a) loadX s

/-- R402: `LDX $nnnn,Y`. -/
def execLdxAbsy (a : Word) (s : State) : Result := readInstr 0xBE (.absy a) loadX s

/-- R403: `LDY #$nn`. -/
def execLdyImm (v : Byte) (s : State) : Result := readInstr 0xA0 (.imm v) loadY s

/-- R403: `LDY $nn`. -/
def execLdyZp (a : Byte) (s : State) : Result := readInstr 0xA4 (.zp a) loadY s

/-- R403: `LDY $nnnn`. -/
def execLdyAbs (a : Word) (s : State) : Result := readInstr 0xAC (.abs a) loadY s

/-- R403: `LDY $nn,X`. -/
def execLdyZpx (a : Byte) (s : State) : Result := readInstr 0xB4 (.zpx a) loadY s

/-- R403: `LDY $nnnn,X`. -/
def execLdyAbsx (a : Word) (s : State) : Result := readInstr 0xBC (.absx a) loadY s

/-- R404: `STA ($nn,X)`. -/
def execStaIzx (a : Byte) (s : State) : Result := storeInstr 0x81 (.izx a) (fun c => c.a) s

/-- R404: `STA $nn`. -/
def execStaZp (a : Byte) (s : State) : Result := storeInstr 0x85 (.zp a) (fun c => c.a) s

/-- R404: `STA $nnnn`. -/
def execStaAbs (a : Word) (s : State) : Result := storeInstr 0x8D (.abs a) (fun c => c.a) s

/-- R404: `STA ($nn),Y`. -/
def execStaIzy (a : Byte) (s : State) : Result := storeInstr 0x91 (.izy a) (fun c => c.a) s

/-- R404: `STA $nn,X`. -/
def execStaZpx (a : Byte) (s : State) : Result := storeInstr 0x95 (.zpx a) (fun c => c.a) s

/-- R404: `STA $nnnn,Y`. -/
def execStaAbsy (a : Word) (s : State) : Result := storeInstr 0x99 (.absy a) (fun c => c.a) s

/-- R404: `STA $nnnn,X`. -/
def execStaAbsx (a : Word) (s : State) : Result := storeInstr 0x9D (.absx a) (fun c => c.a) s

/-- R405: `STX $nn`. -/
def execStxZp (a : Byte) (s : State) : Result := storeInstr 0x86 (.zp a) (fun c => c.x) s

/-- R405: `STX $nnnn`. -/
def execStxAbs (a : Word) (s : State) : Result := storeInstr 0x8E (.abs a) (fun c => c.x) s

/-- R405: `STX $nn,Y`. -/
def execStxZpy (a : Byte) (s : State) : Result := storeInstr 0x96 (.zpy a) (fun c => c.x) s

/-- R406: `STY $nn`. -/
def execStyZp (a : Byte) (s : State) : Result := storeInstr 0x84 (.zp a) (fun c => c.y) s

/-- R406: `STY $nnnn`. -/
def execStyAbs (a : Word) (s : State) : Result := storeInstr 0x8C (.abs a) (fun c => c.y) s

/-- R406: `STY $nn,X`. -/
def execStyZpx (a : Byte) (s : State) : Result := storeInstr 0x94 (.zpx a) (fun c => c.y) s

end Sys2Proof.Machine
end

