-- ==== Sys2Proof/Machine/Logical.lean ====
section
/-! DEFINITION. Machine/Logical.lean: the logical operations (spec/43 R550 to R554). -/

namespace Sys2Proof.Machine

/-- R551: the effect of AND. -/
def andA (m : Byte) (c : Cpu) : Cpu := { c with a := c.a &&& m, p := setNZ (c.a &&& m) c.p }

/-- R552: the effect of EOR. -/
def eorA (m : Byte) (c : Cpu) : Cpu := { c with a := c.a ^^^ m, p := setNZ (c.a ^^^ m) c.p }

/-- R553: the effect of ORA. -/
def oraA (m : Byte) (c : Cpu) : Cpu := { c with a := c.a ||| m, p := setNZ (c.a ||| m) c.p }

/-- R554: the effect of BIT. -/
def bitTest (m : Byte) (c : Cpu) : Cpu := { c with p := bitFlags c.a m c.p }

/-- R551: `AND ($nn,X)`. -/
def execAndIzx (a : Byte) (s : State) : Result := readInstr 0x21 (.izx a) andA s

/-- R551: `AND $nn`. -/
def execAndZp (a : Byte) (s : State) : Result := readInstr 0x25 (.zp a) andA s

/-- R551: `AND #$nn`. -/
def execAndImm (v : Byte) (s : State) : Result := readInstr 0x29 (.imm v) andA s

/-- R551: `AND $nnnn`. -/
def execAndAbs (a : Word) (s : State) : Result := readInstr 0x2D (.abs a) andA s

/-- R551: `AND ($nn),Y`. -/
def execAndIzy (a : Byte) (s : State) : Result := readInstr 0x31 (.izy a) andA s

/-- R551: `AND $nn,X`. -/
def execAndZpx (a : Byte) (s : State) : Result := readInstr 0x35 (.zpx a) andA s

/-- R551: `AND $nnnn,Y`. -/
def execAndAbsy (a : Word) (s : State) : Result := readInstr 0x39 (.absy a) andA s

/-- R551: `AND $nnnn,X`. -/
def execAndAbsx (a : Word) (s : State) : Result := readInstr 0x3D (.absx a) andA s

/-- R552: `EOR ($nn,X)`. -/
def execEorIzx (a : Byte) (s : State) : Result := readInstr 0x41 (.izx a) eorA s

/-- R552: `EOR $nn`. -/
def execEorZp (a : Byte) (s : State) : Result := readInstr 0x45 (.zp a) eorA s

/-- R552: `EOR #$nn`. -/
def execEorImm (v : Byte) (s : State) : Result := readInstr 0x49 (.imm v) eorA s

/-- R552: `EOR $nnnn`. -/
def execEorAbs (a : Word) (s : State) : Result := readInstr 0x4D (.abs a) eorA s

/-- R552: `EOR ($nn),Y`. -/
def execEorIzy (a : Byte) (s : State) : Result := readInstr 0x51 (.izy a) eorA s

/-- R552: `EOR $nn,X`. -/
def execEorZpx (a : Byte) (s : State) : Result := readInstr 0x55 (.zpx a) eorA s

/-- R552: `EOR $nnnn,Y`. -/
def execEorAbsy (a : Word) (s : State) : Result := readInstr 0x59 (.absy a) eorA s

/-- R552: `EOR $nnnn,X`. -/
def execEorAbsx (a : Word) (s : State) : Result := readInstr 0x5D (.absx a) eorA s

/-- R553: `ORA ($nn,X)`. -/
def execOraIzx (a : Byte) (s : State) : Result := readInstr 0x01 (.izx a) oraA s

/-- R553: `ORA $nn`. -/
def execOraZp (a : Byte) (s : State) : Result := readInstr 0x05 (.zp a) oraA s

/-- R553: `ORA #$nn`. -/
def execOraImm (v : Byte) (s : State) : Result := readInstr 0x09 (.imm v) oraA s

/-- R553: `ORA $nnnn`. -/
def execOraAbs (a : Word) (s : State) : Result := readInstr 0x0D (.abs a) oraA s

/-- R553: `ORA ($nn),Y`. -/
def execOraIzy (a : Byte) (s : State) : Result := readInstr 0x11 (.izy a) oraA s

/-- R553: `ORA $nn,X`. -/
def execOraZpx (a : Byte) (s : State) : Result := readInstr 0x15 (.zpx a) oraA s

/-- R553: `ORA $nnnn,Y`. -/
def execOraAbsy (a : Word) (s : State) : Result := readInstr 0x19 (.absy a) oraA s

/-- R553: `ORA $nnnn,X`. -/
def execOraAbsx (a : Word) (s : State) : Result := readInstr 0x1D (.absx a) oraA s

/-- R554: `BIT $nn`. -/
def execBitZp (a : Byte) (s : State) : Result := readInstr 0x24 (.zp a) bitTest s

/-- R554: `BIT $nnnn`. -/
def execBitAbs (a : Word) (s : State) : Result := readInstr 0x2C (.abs a) bitTest s

end Sys2Proof.Machine
end

