-- ==== Sys2Proof/Machine/Shift.lean ====
section
/-! DEFINITION. Machine/Shift.lean: the shifts and rotates (spec/45 R650 to R654). -/

namespace Sys2Proof.Machine

/-- The carry as a bit of value 1. -/
def carryBit (c : Cpu) : Byte := if getFlag .c c.p then 1 else 0

/-- R651: the result of ASL. -/
def aslValue (m : Byte) (_ : Cpu) : Byte := m <<< 1

/-- R652: the result of LSR. -/
def lsrValue (m : Byte) (_ : Cpu) : Byte := m >>> 1

/-- R653: the result of ROL: the old carry enters bit 0. -/
def rolValue (m : Byte) (c : Cpu) : Byte := (m <<< 1) ||| carryBit c

/-- R654: the result of ROR: the old carry enters bit 7. -/
def rorValue (m : Byte) (c : Cpu) : Byte := (m >>> 1) ||| (carryBit c <<< 7)

/-- R650: C is the bit shifted out, N and Z come from the result. -/
def shiftFlags (value : Byte → Cpu → Byte) (out : Nat) (m : Byte) (c : Cpu) : Cpu :=
  { c with p := setNZ (value m c) (setFlag .c (m.getLsbD out) c.p) }

/-- R651: `ASL $nn`. -/
def execAslZp (a : Byte) (s : State) : Result :=
  modifyInstr 0x06 (.zp a) aslValue (shiftFlags aslValue 7) s

/-- R651: `ASL A`. -/
def execAslAcc (s : State) : Result :=
  modifyInstr 0x0A .acc aslValue (shiftFlags aslValue 7) s

/-- R651: `ASL $nnnn`. -/
def execAslAbs (a : Word) (s : State) : Result :=
  modifyInstr 0x0E (.abs a) aslValue (shiftFlags aslValue 7) s

/-- R651: `ASL $nn,X`. -/
def execAslZpx (a : Byte) (s : State) : Result :=
  modifyInstr 0x16 (.zpx a) aslValue (shiftFlags aslValue 7) s

/-- R651: `ASL $nnnn,X`. -/
def execAslAbsx (a : Word) (s : State) : Result :=
  modifyInstr 0x1E (.absx a) aslValue (shiftFlags aslValue 7) s

/-- R652: `LSR $nn`. -/
def execLsrZp (a : Byte) (s : State) : Result :=
  modifyInstr 0x46 (.zp a) lsrValue (shiftFlags lsrValue 0) s

/-- R652: `LSR A`. -/
def execLsrAcc (s : State) : Result :=
  modifyInstr 0x4A .acc lsrValue (shiftFlags lsrValue 0) s

/-- R652: `LSR $nnnn`. -/
def execLsrAbs (a : Word) (s : State) : Result :=
  modifyInstr 0x4E (.abs a) lsrValue (shiftFlags lsrValue 0) s

/-- R652: `LSR $nn,X`. -/
def execLsrZpx (a : Byte) (s : State) : Result :=
  modifyInstr 0x56 (.zpx a) lsrValue (shiftFlags lsrValue 0) s

/-- R652: `LSR $nnnn,X`. -/
def execLsrAbsx (a : Word) (s : State) : Result :=
  modifyInstr 0x5E (.absx a) lsrValue (shiftFlags lsrValue 0) s

/-- R653: `ROL $nn`. -/
def execRolZp (a : Byte) (s : State) : Result :=
  modifyInstr 0x26 (.zp a) rolValue (shiftFlags rolValue 7) s

/-- R653: `ROL A`. -/
def execRolAcc (s : State) : Result :=
  modifyInstr 0x2A .acc rolValue (shiftFlags rolValue 7) s

/-- R653: `ROL $nnnn`. -/
def execRolAbs (a : Word) (s : State) : Result :=
  modifyInstr 0x2E (.abs a) rolValue (shiftFlags rolValue 7) s

/-- R653: `ROL $nn,X`. -/
def execRolZpx (a : Byte) (s : State) : Result :=
  modifyInstr 0x36 (.zpx a) rolValue (shiftFlags rolValue 7) s

/-- R653: `ROL $nnnn,X`. -/
def execRolAbsx (a : Word) (s : State) : Result :=
  modifyInstr 0x3E (.absx a) rolValue (shiftFlags rolValue 7) s

/-- R654: `ROR $nn`. -/
def execRorZp (a : Byte) (s : State) : Result :=
  modifyInstr 0x66 (.zp a) rorValue (shiftFlags rorValue 0) s

/-- R654: `ROR A`. -/
def execRorAcc (s : State) : Result :=
  modifyInstr 0x6A .acc rorValue (shiftFlags rorValue 0) s

/-- R654: `ROR $nnnn`. -/
def execRorAbs (a : Word) (s : State) : Result :=
  modifyInstr 0x6E (.abs a) rorValue (shiftFlags rorValue 0) s

/-- R654: `ROR $nn,X`. -/
def execRorZpx (a : Byte) (s : State) : Result :=
  modifyInstr 0x76 (.zpx a) rorValue (shiftFlags rorValue 0) s

/-- R654: `ROR $nnnn,X`. -/
def execRorAbsx (a : Word) (s : State) : Result :=
  modifyInstr 0x7E (.absx a) rorValue (shiftFlags rorValue 0) s

end Sys2Proof.Machine
end

