-- ==== Sys2Proof/Machine/Stack.lean ====
section
/-! DEFINITION. Machine/Stack.lean: the stack instructions (spec/42 R501 to R505). -/

namespace Sys2Proof.Machine

/-- R502: `PHA`. -/
def execPha (s : State) : Result := .next ((push s.cpu.a s).charge (cyclesOf s.cfg 0x48 false))

/-- R503: `PLA`. -/
def execPla (s : State) : Result :=
  let b := pull s
  .next ((b.2.mapCpu fun r => { r with a := b.1, p := setNZ b.1 r.p }).charge (cyclesOf s.cfg 0x68 false))

/-- R504: `PHP`. -/
def execPhp (s : State) : Result := .next ((push (pushedByProgram s.cpu.p) s).charge (cyclesOf s.cfg 0x08 false))

/-- R505: `PLP`. -/
def execPlp (s : State) : Result :=
  let b := pull s
  .next ((b.2.mapCpu fun r => { r with p := pulledStatus b.1 }).charge (cyclesOf s.cfg 0x28 false))

end Sys2Proof.Machine
end

