-- ==== Sys2Proof/Machine/Transfer.lean ====
section
/-! DEFINITION. Machine/Transfer.lean: the register transfers (spec/41 R450 to R456). -/

namespace Sys2Proof.Machine

/-- R451: `TAX`. -/
def execTax (s : State) : Result :=
  registerInstr 0xAA (fun c => { c with x := c.a, p := setNZ c.a c.p }) s

/-- R452: `TAY`. -/
def execTay (s : State) : Result :=
  registerInstr 0xA8 (fun c => { c with y := c.a, p := setNZ c.a c.p }) s

/-- R453: `TXA`. -/
def execTxa (s : State) : Result :=
  registerInstr 0x8A (fun c => { c with a := c.x, p := setNZ c.x c.p }) s

/-- R454: `TYA`. -/
def execTya (s : State) : Result :=
  registerInstr 0x98 (fun c => { c with a := c.y, p := setNZ c.y c.p }) s

/-- R455: `TSX`. -/
def execTsx (s : State) : Result :=
  registerInstr 0xBA (fun c => { c with x := c.s, p := setNZ c.s c.p }) s

/-- R456: `TXS`. -/
def execTxs (s : State) : Result :=
  registerInstr 0x9A (fun c => { c with s := c.x }) s

end Sys2Proof.Machine
end

