-- ==== Sys2Proof/Machine/Dispatch.lean ====
section
/-! DEFINITION. Machine/Dispatch.lean: one arm per instruction. -/

namespace Sys2Proof.Machine

def exec (i : Instr) (s : State) : Host.Outcome State Fault Refusal :=
  match i with
  | .ldaIzx a => Sys2Proof.Machine.execLdaIzx a s
  | .ldaZp a => Sys2Proof.Machine.execLdaZp a s
  | .ldaImm v => Sys2Proof.Machine.execLdaImm v s
  | .ldaAbs a => Sys2Proof.Machine.execLdaAbs a s
  | .ldaIzy a => Sys2Proof.Machine.execLdaIzy a s
  | .ldaZpx a => Sys2Proof.Machine.execLdaZpx a s
  | .ldaAbsy a => Sys2Proof.Machine.execLdaAbsy a s
  | .ldaAbsx a => Sys2Proof.Machine.execLdaAbsx a s
  | .ldxImm v => Sys2Proof.Machine.execLdxImm v s
  | .ldxZp a => Sys2Proof.Machine.execLdxZp a s
  | .ldxAbs a => Sys2Proof.Machine.execLdxAbs a s
  | .ldxZpy a => Sys2Proof.Machine.execLdxZpy a s
  | .ldxAbsy a => Sys2Proof.Machine.execLdxAbsy a s
  | .ldyImm v => Sys2Proof.Machine.execLdyImm v s
  | .ldyZp a => Sys2Proof.Machine.execLdyZp a s
  | .ldyAbs a => Sys2Proof.Machine.execLdyAbs a s
  | .ldyZpx a => Sys2Proof.Machine.execLdyZpx a s
  | .ldyAbsx a => Sys2Proof.Machine.execLdyAbsx a s
  | .staIzx a => Sys2Proof.Machine.execStaIzx a s
  | .staZp a => Sys2Proof.Machine.execStaZp a s
  | .staAbs a => Sys2Proof.Machine.execStaAbs a s
  | .staIzy a => Sys2Proof.Machine.execStaIzy a s
  | .staZpx a => Sys2Proof.Machine.execStaZpx a s
  | .staAbsy a => Sys2Proof.Machine.execStaAbsy a s
  | .staAbsx a => Sys2Proof.Machine.execStaAbsx a s
  | .stxZp a => Sys2Proof.Machine.execStxZp a s
  | .stxAbs a => Sys2Proof.Machine.execStxAbs a s
  | .stxZpy a => Sys2Proof.Machine.execStxZpy a s
  | .styZp a => Sys2Proof.Machine.execStyZp a s
  | .styAbs a => Sys2Proof.Machine.execStyAbs a s
  | .styZpx a => Sys2Proof.Machine.execStyZpx a s
  | .tax => Sys2Proof.Machine.execTax s
  | .tay => Sys2Proof.Machine.execTay s
  | .txa => Sys2Proof.Machine.execTxa s
  | .tya => Sys2Proof.Machine.execTya s
  | .tsx => Sys2Proof.Machine.execTsx s
  | .txs => Sys2Proof.Machine.execTxs s
  | .pha => Sys2Proof.Machine.execPha s
  | .pla => Sys2Proof.Machine.execPla s
  | .php => Sys2Proof.Machine.execPhp s
  | .plp => Sys2Proof.Machine.execPlp s
  | .andIzx a => Sys2Proof.Machine.execAndIzx a s
  | .andZp a => Sys2Proof.Machine.execAndZp a s
  | .andImm v => Sys2Proof.Machine.execAndImm v s
  | .andAbs a => Sys2Proof.Machine.execAndAbs a s
  | .andIzy a => Sys2Proof.Machine.execAndIzy a s
  | .andZpx a => Sys2Proof.Machine.execAndZpx a s
  | .andAbsy a => Sys2Proof.Machine.execAndAbsy a s
  | .andAbsx a => Sys2Proof.Machine.execAndAbsx a s
  | .eorIzx a => Sys2Proof.Machine.execEorIzx a s
  | .eorZp a => Sys2Proof.Machine.execEorZp a s
  | .eorImm v => Sys2Proof.Machine.execEorImm v s
  | .eorAbs a => Sys2Proof.Machine.execEorAbs a s
  | .eorIzy a => Sys2Proof.Machine.execEorIzy a s
  | .eorZpx a => Sys2Proof.Machine.execEorZpx a s
  | .eorAbsy a => Sys2Proof.Machine.execEorAbsy a s
  | .eorAbsx a => Sys2Proof.Machine.execEorAbsx a s
  | .oraIzx a => Sys2Proof.Machine.execOraIzx a s
  | .oraZp a => Sys2Proof.Machine.execOraZp a s
  | .oraImm v => Sys2Proof.Machine.execOraImm v s
  | .oraAbs a => Sys2Proof.Machine.execOraAbs a s
  | .oraIzy a => Sys2Proof.Machine.execOraIzy a s
  | .oraZpx a => Sys2Proof.Machine.execOraZpx a s
  | .oraAbsy a => Sys2Proof.Machine.execOraAbsy a s
  | .oraAbsx a => Sys2Proof.Machine.execOraAbsx a s
  | .bitZp a => Sys2Proof.Machine.execBitZp a s
  | .bitAbs a => Sys2Proof.Machine.execBitAbs a s
  | .incZp a => Sys2Proof.Machine.execIncZp a s
  | .incAbs a => Sys2Proof.Machine.execIncAbs a s
  | .incZpx a => Sys2Proof.Machine.execIncZpx a s
  | .incAbsx a => Sys2Proof.Machine.execIncAbsx a s
  | .decZp a => Sys2Proof.Machine.execDecZp a s
  | .decAbs a => Sys2Proof.Machine.execDecAbs a s
  | .decZpx a => Sys2Proof.Machine.execDecZpx a s
  | .decAbsx a => Sys2Proof.Machine.execDecAbsx a s
  | .inx => Sys2Proof.Machine.execInx s
  | .dex => Sys2Proof.Machine.execDex s
  | .iny => Sys2Proof.Machine.execIny s
  | .dey => Sys2Proof.Machine.execDey s
  | .aslZp a => Sys2Proof.Machine.execAslZp a s
  | .aslAcc => Sys2Proof.Machine.execAslAcc s
  | .aslAbs a => Sys2Proof.Machine.execAslAbs a s
  | .aslZpx a => Sys2Proof.Machine.execAslZpx a s
  | .aslAbsx a => Sys2Proof.Machine.execAslAbsx a s
  | .lsrZp a => Sys2Proof.Machine.execLsrZp a s
  | .lsrAcc => Sys2Proof.Machine.execLsrAcc s
  | .lsrAbs a => Sys2Proof.Machine.execLsrAbs a s
  | .lsrZpx a => Sys2Proof.Machine.execLsrZpx a s
  | .lsrAbsx a => Sys2Proof.Machine.execLsrAbsx a s
  | .rolZp a => Sys2Proof.Machine.execRolZp a s
  | .rolAcc => Sys2Proof.Machine.execRolAcc s
  | .rolAbs a => Sys2Proof.Machine.execRolAbs a s
  | .rolZpx a => Sys2Proof.Machine.execRolZpx a s
  | .rolAbsx a => Sys2Proof.Machine.execRolAbsx a s
  | .rorZp a => Sys2Proof.Machine.execRorZp a s
  | .rorAcc => Sys2Proof.Machine.execRorAcc s
  | .rorAbs a => Sys2Proof.Machine.execRorAbs a s
  | .rorZpx a => Sys2Proof.Machine.execRorZpx a s
  | .rorAbsx a => Sys2Proof.Machine.execRorAbsx a s
  | .adcIzx a => Sys2Proof.Machine.execAdcIzx a s
  | .adcZp a => Sys2Proof.Machine.execAdcZp a s
  | .adcImm v => Sys2Proof.Machine.execAdcImm v s
  | .adcAbs a => Sys2Proof.Machine.execAdcAbs a s
  | .adcIzy a => Sys2Proof.Machine.execAdcIzy a s
  | .adcZpx a => Sys2Proof.Machine.execAdcZpx a s
  | .adcAbsy a => Sys2Proof.Machine.execAdcAbsy a s
  | .adcAbsx a => Sys2Proof.Machine.execAdcAbsx a s
  | .sbcIzx a => Sys2Proof.Machine.execSbcIzx a s
  | .sbcZp a => Sys2Proof.Machine.execSbcZp a s
  | .sbcImm v => Sys2Proof.Machine.execSbcImm v s
  | .sbcAbs a => Sys2Proof.Machine.execSbcAbs a s
  | .sbcIzy a => Sys2Proof.Machine.execSbcIzy a s
  | .sbcZpx a => Sys2Proof.Machine.execSbcZpx a s
  | .sbcAbsy a => Sys2Proof.Machine.execSbcAbsy a s
  | .sbcAbsx a => Sys2Proof.Machine.execSbcAbsx a s
  | .cmpIzx a => Sys2Proof.Machine.execCmpIzx a s
  | .cmpZp a => Sys2Proof.Machine.execCmpZp a s
  | .cmpImm v => Sys2Proof.Machine.execCmpImm v s
  | .cmpAbs a => Sys2Proof.Machine.execCmpAbs a s
  | .cmpIzy a => Sys2Proof.Machine.execCmpIzy a s
  | .cmpZpx a => Sys2Proof.Machine.execCmpZpx a s
  | .cmpAbsy a => Sys2Proof.Machine.execCmpAbsy a s
  | .cmpAbsx a => Sys2Proof.Machine.execCmpAbsx a s
  | .cpxImm v => Sys2Proof.Machine.execCpxImm v s
  | .cpxZp a => Sys2Proof.Machine.execCpxZp a s
  | .cpxAbs a => Sys2Proof.Machine.execCpxAbs a s
  | .cpyImm v => Sys2Proof.Machine.execCpyImm v s
  | .cpyZp a => Sys2Proof.Machine.execCpyZp a s
  | .cpyAbs a => Sys2Proof.Machine.execCpyAbs a s
  | .bpl d => Sys2Proof.Machine.execBpl d s
  | .bmi d => Sys2Proof.Machine.execBmi d s
  | .bvc d => Sys2Proof.Machine.execBvc d s
  | .bvs d => Sys2Proof.Machine.execBvs d s
  | .bcc d => Sys2Proof.Machine.execBcc d s
  | .bcs d => Sys2Proof.Machine.execBcs d s
  | .bne d => Sys2Proof.Machine.execBne d s
  | .beq d => Sys2Proof.Machine.execBeq d s
  | .jmpAbs a => Sys2Proof.Machine.execJmpAbs a s
  | .jmpInd a => Sys2Proof.Machine.execJmpInd a s
  | .jsr a => Sys2Proof.Machine.execJsr a s
  | .rts => Sys2Proof.Machine.execRts s
  | .brk => Sys2Proof.Machine.execBrk s
  | .rti => Sys2Proof.Machine.execRti s
  | .clc => Sys2Proof.Machine.execClc s
  | .sec => Sys2Proof.Machine.execSec s
  | .cli => Sys2Proof.Machine.execCli s
  | .sei => Sys2Proof.Machine.execSei s
  | .clv => Sys2Proof.Machine.execClv s
  | .cld => Sys2Proof.Machine.execCld s
  | .sed => Sys2Proof.Machine.execSed s
  | .nop => Sys2Proof.Machine.execNop s
  | .iscIzx a => Sys2Proof.Machine.execIscIzx a s
  | .iscZp a => Sys2Proof.Machine.execIscZp a s
  | .iscAbs a => Sys2Proof.Machine.execIscAbs a s
  | .iscIzy a => Sys2Proof.Machine.execIscIzy a s
  | .iscZpx a => Sys2Proof.Machine.execIscZpx a s
  | .iscAbsy a => Sys2Proof.Machine.execIscAbsy a s
  | .iscAbsx a => Sys2Proof.Machine.execIscAbsx a s
  | .decodeFailure opc => Sys2Proof.Machine.execDecodeFailure opc s

end Sys2Proof.Machine
end

