-- ==== Sys2Proof/Machine/Render.lean ====
section
/-! DEFINITION. Machine/Render.lean: the PPU's dot step: vertical blank, the pixel, the background and sprite pipelines and the
position (spec/50). -/

namespace Sys2Proof.Machine

/-! ## Position and gates -/

/-- R900: the visible lines. -/
def Ppu.onVisibleLine (q : Ppu) : Bool := decide (q.scanline ≤ 239)

/-- R900: the rendering lines: the visible ones and the pre-render line. -/
def Ppu.onRenderLine (q : Ppu) : Bool := q.onVisibleLine || q.scanline == 261

/-- R905: `mask[3]`. -/
def Ppu.bgOn (q : Ppu) : Bool := regBit q.mask 3

/-- R905: `mask[4]`. -/
def Ppu.sprOn (q : Ppu) : Bool := regBit q.mask 4

/-- A dot between two dots, both included. -/
def Ppu.dotIn (q : Ppu) (first last : Nat) : Bool := decide (first ≤ q.dot) && decide (q.dot ≤ last)

/-- R902, R940: a dot that has a pixel: dots 1..256 of a visible line. -/
def Ppu.onPixel (q : Ppu) : Bool := q.onVisibleLine && q.dotIn 1 256

/-- R901: whether the dot after this one is skipped. -/
def Ppu.skipsDot (cfg : Config) (q : Ppu) : Bool :=
  q.scanline == 261 && q.dot == 339 && q.frame % 2 == 1 && (!cfg.oddSkipNeedsRendering || q.bgOn || q.sprOn)

/-- R901: the position advance. -/
def advance (cfg : Config) (q : Ppu) : Ppu :=
  if q.skipsDot cfg then { q with scanline := 0, dot := 0, frame := q.frame + 1 }
  else if q.dot = 340 then
    if q.scanline = 261 then { q with dot := 0, scanline := 0, frame := q.frame + 1 }
    else { q with dot := 0, scanline := q.scanline + 1 }
  else { q with dot := q.dot + 1 }

/-! ## Vertical blank (R960) -/

/-- R960: the start of vertical blank, and the NMI it raises. -/
def vblankStart (s : State) : State :=
  { s with ppu := { s.ppu with vblank := true }, nmiLine := s.nmiLine || regBit s.ppu.ctrl 7 }

/-- R960: the end of vertical blank. -/
def vblankEnd (q : Ppu) : Ppu := { q with vblank := false, s0hit := false }

/-- R960: the vertical-blank events of this dot. -/
def vblankEvents (s : State) : State :=
  if s.ppu.scanline = 241 ∧ s.ppu.dot = 1 then vblankStart s
  else if s.ppu.scanline = 261 ∧ s.ppu.dot = 1 then s.mapPpu vblankEnd
  else s

/-! ## Background pipeline (R910 to R916) -/

/-- R911: `NtAddr`. -/
def ntAddr (v : VramReg) : Word := 0x2000 ||| (vramWord v &&& 0x0FFF)

/-- R911: `AtAddr`. -/
def atAddr (v : VramReg) : Word :=
  0x23C0 ||| (vramWord v &&& 0x0C00) ||| ((vramWord v >>> 4) &&& 0x38) ||| ((vramWord v >>> 2) &&& 0x07)

/-- R911: `AtSelect`. -/
def atSelect (b : Byte) (v : VramReg) : BitVec 2 :=
  (b >>> (((coarseY v &&& 2) <<< 1) ||| (coarseX v &&& 2)).toNat).setWidth 2

/-- The base of a pattern half, chosen by a bit of `ctrl` (R911, R932). -/
def patternHalf (upper : Bool) : Word := if upper then 0x1000 else 0x0000

/-- R911: `BgPatAddr`, the low plane; the high plane is 8 further. -/
def bgPatAddr (ctrl n : Byte) (v : VramReg) : Word :=
  patternHalf (regBit ctrl 4) + n.setWidth 16 * 16 + (fineY v).setWidth 16

/-- R910: the four shift registers move one bit. -/
def bgShift (q : Ppu) : Ppu :=
  { q with bgLo := q.bgLo <<< 1, bgHi := q.bgHi <<< 1, bgAt0 := q.bgAt0 <<< 1, bgAt1 := q.bgAt1 <<< 1 }

/-- R912: a shift register's low byte loaded, its high byte kept. -/
def loadLow (r : BitVec 16) (b : Byte) : BitVec 16 := (r &&& 0xFF00) ||| b.setWidth 16

/-- R912: an attribute bit broadcast. -/
def broadcast (on : Bool) : Byte := if on then 0xFF else 0x00

/-- R912: `Reload()`. -/
def bgReload (q : Ppu) : Ppu :=
  { q with
    bgLo := loadLow q.bgLo q.ptLo
    bgHi := loadLow q.bgHi q.ptHi
    bgAt0 := loadLow q.bgAt0 (broadcast (q.atBits.getLsbD 0))
    bgAt1 := loadLow q.bgAt1 (broadcast (q.atBits.getLsbD 1)) }

/-- R913: `IncX()` on `v`. -/
def incX (v : VramReg) : VramReg :=
  if coarseX v = 31 then packVram 0 (coarseY v) (ntSelect v ^^^ 1) (fineY v)
  else packVram (coarseX v + 1) (coarseY v) (ntSelect v) (fineY v)

/-- R914: `IncY()` on `v`. -/
def incY (v : VramReg) : VramReg :=
  if fineY v < 7 then packVram (coarseX v) (coarseY v) (ntSelect v) (fineY v + 1)
  else if coarseY v = 29 then packVram (coarseX v) 0 (ntSelect v ^^^ 2) 0
  else if coarseY v = 31 then packVram (coarseX v) 0 (ntSelect v) 0
  else packVram (coarseX v) (coarseY v + 1) (ntSelect v) 0

/-- R915: the horizontal reload of `v`. -/
def reloadX (v t : VramReg) : VramReg := (v &&& ~~~0x041F#15) ||| (t &&& 0x041F)

/-- R916: the vertical reload of `v`. -/
def reloadY (v t : VramReg) : VramReg := (v &&& ~~~0x7BE0#15) ||| (t &&& 0x7BE0)

/-- R910: the action of a dot of the fetch windows. -/
def bgFetch (mir : Mirroring) (q : Ppu) : Ppu :=
  match q.dot % 8 with
  | 1 => { q with ntByte := ppuRead mir (ntAddr q.v) q }
  | 3 => { q with atBits := atSelect (ppuRead mir (atAddr q.v) q) q.v }
  | 5 => { q with ptLo := ppuRead mir (bgPatAddr q.ctrl q.ntByte q.v) q }
  | 7 => { q with ptHi := ppuRead mir (bgPatAddr q.ctrl q.ntByte q.v + 8) q }
  | 0 =>
    let q := bgReload q
    let q := { q with v := incX q.v }
    if q.dot = 256 then { q with v := incY q.v } else q
  | _ => q

/-- R910: the dots of the fetch windows. -/
def Ppu.inBgWindow (q : Ppu) : Bool := q.dotIn 1 256 || q.dotIn 321 336

/-- R915, R916: the reloads of `v` from `t`. -/
def bgScroll (q : Ppu) : Ppu :=
  if q.dot = 257 then { q with v := reloadX q.v q.t }
  else if q.scanline = 261 ∧ 280 ≤ q.dot ∧ q.dot ≤ 304 then { q with v := reloadY q.v q.t }
  else q

/-- R902 step 3, gated by R905. -/
def bgPipeline (mir : Mirroring) (q : Ppu) : Ppu :=
  if q.bgOn && q.onRenderLine then
    if q.inBgWindow then bgFetch mir (bgShift q) else bgScroll q
  else q

/-! ## Sprite pipeline (R930 to R934) -/

/-- R931: secondary OAM cleared to `$FF`, and with it the count and the sprite-0 latch. -/
def clearOam2 (q : Ppu) : Ppu :=
  { q with oam2 := Memory.writeBytes [] 0 (List.replicate oam2Size 0xFF), oam2Count := 0, s0Next := false }

/-- R930: an entry whose top is at `y` is in range for a line. -/
def inRange (line : Nat) (y : Byte) : Bool := decide (y.toNat ≤ line) && decide (line - y.toNat < 8)

/-- R161: byte `j` of primary OAM entry `n`. -/
def oamByte (q : Ppu) (n j : Nat) : Byte := q.oam.read (4 * n + j)

/-- R931: the examination of sprite `n`. -/
def evalSprite (n : Nat) (q : Ppu) : Ppu :=
  if inRange q.scanline (oamByte q n 0) && decide (q.oam2Count < 8) then
    { q with
      oam2 := q.oam2.writeBytes (4 * q.oam2Count) [oamByte q n 0, oamByte q n 1, oamByte q n 2, oamByte q n 3]
      oam2Count := q.oam2Count + 1
      s0Next := q.s0Next || n == 0 }
  else q

/-- R931: clear at dot 1, sprite `n` at dot `65 + 3n` of a visible line. -/
def sprEvaluate (q : Ppu) : Ppu :=
  if q.dot = 1 then clearOam2 q
  else if q.onVisibleLine && q.dotIn 65 254 && q.dot % 3 == 2 then evalSprite ((q.dot - 65) / 3) q
  else q

/-- R932: `Reverse8`. -/
def reverse8 (b : Byte) : Byte := b.reverse

/-- R932: the address of a sprite row's low plane, on unbounded integers, then 14 bits of the PPU bus (R240; log 11). -/
def sprPatAddr (ctrl : Byte) (line : Nat) (f : SpriteFetch) : Word :=
  let row : Int := (line : Int) - f.sy.toNat
  let row := if regBit f.attr 7 then 7 - row else row
  BitVec.ofInt 16 ((patternHalf (regBit ctrl 3)).toNat + f.tile.toNat * 16 + row)

/-- A slot of the list replaced. -/
def setSlot (i : Nat) (g : Slot → Slot) (spr : List Slot) : List Slot := spr.modify i g

/-- R932 at dot `257 + 8i`: the entry's four bytes are taken. -/
def sprLoad (i : Nat) (q : Ppu) : Ppu :=
  let at2 := q.oam2.read (4 * i + 2)
  { q with
    fetch := { q.fetch with sy := q.oam2.read (4 * i), tile := q.oam2.read (4 * i + 1), attr := at2, sx := q.oam2.read (4 * i + 3) }
    spr := setSlot i (fun sl => { sl with attr := at2 }) q.spr }

/-- R932 at dot `261 + 8i`: the low plane, transparent for an empty slot. -/
def sprFetchLo (mir : Mirroring) (i : Nat) (q : Ppu) : Ppu :=
  let b := if i < q.oam2Count then ppuRead mir (sprPatAddr q.ctrl q.scanline q.fetch) q else 0
  { q with fetch := { q.fetch with lo := b } }

/-- R932 at dot `263 + 8i`: the high plane, 8 further.  The spec's "same address" is computed anew at this dot, with `ctrl[3]` as it
then stands, not held from dot `261 + 8i` (DESIGN CHOICE, log 22). -/
def sprFetchHi (mir : Mirroring) (i : Nat) (q : Ppu) : Ppu :=
  let b := if i < q.oam2Count then ppuRead mir (sprPatAddr q.ctrl q.scanline q.fetch + 8) q else 0
  { q with fetch := { q.fetch with hi := b } }

/-- R932: the horizontal flip of a fetched byte. -/
def flipped (attr b : Byte) : Byte := if regBit attr 6 then reverse8 b else b

/-- R932 at dot `264 + 8i`: the held bytes are flipped, and the slot is armed with them.  R932 writes the flipped bytes back
(`lo <- Reverse8(lo)`), so the held bytes stay in that form, which a later slot arms with when `mask[4]` was clear at its own fetches
(DEDUCED, log 10). -/
def sprArm (i : Nat) (q : Ppu) : Ppu :=
  let f := q.fetch
  let lo := flipped f.attr f.lo
  let hi := flipped f.attr f.hi
  { q with
    fetch := { f with lo := lo, hi := hi }
    spr := setSlot i (fun sl => { sl with lo := lo, hi := hi, xcnt := f.sx, active := f.sx == 0 }) q.spr }

/-- R932: the fetch action of a dot of 257..320. -/
def sprFetch (mir : Mirroring) (q : Ppu) : Ppu :=
  let i := (q.dot - 257) / 8
  match (q.dot - 257) % 8 with
  | 0 => sprLoad i q
  | 4 => sprFetchLo mir i q
  | 6 => sprFetchHi mir i q
  | 7 => sprArm i q
  | _ => q

/-- R934: the sprite-0 latch moves on at dot 257. -/
def s0Transfer (q : Ppu) : Ppu := if q.dot = 257 then { q with s0Cur := q.s0Next } else q

/-- R933: one slot's countdown or shift. -/
def slotTick (sl : Slot) : Slot :=
  if sl.active then { sl with lo := sl.lo <<< 1, hi := sl.hi <<< 1 }
  else { sl with xcnt := sl.xcnt - 1, active := sl.xcnt - 1 == 0 }

/-- R933: every slot's countdown or shift. -/
def sprShift (q : Ppu) : Ppu := { q with spr := q.spr.map slotTick }

/-- R902 step 4, gated by R905. -/
def sprPipeline (mir : Mirroring) (q : Ppu) : Ppu :=
  if q.sprOn && q.onRenderLine then
    let q := sprEvaluate q
    let q := if q.dotIn 257 320 then sprFetch mir (s0Transfer q) else q
    if q.onPixel then sprShift q else q
  else q

/-! ## The pixel (R920, R935 to R950) -/

/-- R920: the background pixel, the attribute bits above the pattern bits. -/
def bgPixel (q : Ppu) : BitVec 4 :=
  let b := 15 - q.fineX.toNat
  if q.bgOn then
    (BitVec.ofBool (q.bgAt1.getLsbD b) ++ BitVec.ofBool (q.bgAt0.getLsbD b) ++ BitVec.ofBool (q.bgHi.getLsbD b)
      ++ BitVec.ofBool (q.bgLo.getLsbD b) : BitVec (1 + 1 + 1 + 1))
  else 0

/-- R920: a background pixel with a pattern is opaque. -/
def bgOpaque (px : BitVec 4) : Bool := (px &&& 3) != 0

/-- The sprite pixel of R935: its palette index, whether it lies in front, and its slot. -/
structure SpritePixel where
  index : BitVec 5
  front : Bool
  slot : Nat
  deriving DecidableEq, Repr

/-- R935: the two pattern bits a slot shows. -/
def slotPattern (sl : Slot) : BitVec 2 := (BitVec.ofBool sl.hi.msb ++ BitVec.ofBool sl.lo.msb : BitVec (1 + 1))

/-- R935: the pixel of a slot, if it is active and opaque. -/
def slotPixel (i : Nat) (sl : Slot) : Option SpritePixel :=
  if sl.active && slotPattern sl != 0 then
    some
      { index := 0x10 ||| ((sl.attr &&& 3).setWidth 5 <<< 2) ||| (slotPattern sl).setWidth 5
        front := !regBit sl.attr 5
        slot := i }
  else none

/-- R935: the first slot that has a pixel, the slots numbered from `i`. -/
def firstPixel : (i : Nat) → List Slot → Option SpritePixel
  | _, [] => none
  | i, sl :: rest => (slotPixel i sl).orElse fun _ => firstPixel (i + 1) rest

/-- R935: the sprite pixel; transparent with sprites off. -/
def spritePixel (q : Ppu) : Option SpritePixel := if q.sprOn then firstPixel 0 q.spr else none

/-- R940: the composed palette index. -/
def compose (bg : BitVec 4) (sp : Option SpritePixel) : BitVec 5 :=
  match sp with
  | some p => if !bgOpaque bg || p.front then p.index else bg.setWidth 5
  | none => if bgOpaque bg then bg.setWidth 5 else 0

/-- R945: the palette byte of a composed index. -/
def paletteByte (q : Ppu) (idx : BitVec 5) : Byte := q.pal.read (palIndex (0x3F00 + idx.setWidth 16))

/-- R950: whether this dot is a sprite-0 hit. -/
def hitsSprite0 (q : Ppu) : Bool :=
  q.bgOn && q.sprOn && q.s0Cur && bgOpaque (bgPixel q) && (match spritePixel q with | some p => p.slot == 0 | none => false)

/-- R946, R1131: a call to the display sink, made only while it is ready. -/
def State.callSink (c : HostCall) (s : State) : State := if s.host.sinkReady then s.call c else s

/-- R902 step 2: the pixel of a visible dot (R940 to R950); `present_frame` at dot 0 of line 240 (R946; log 19). -/
def pixelStep (s : State) : State :=
  if s.ppu.onPixel then
    (s.callSink (.emitPixel (paletteByte s.ppu (compose (bgPixel s.ppu) (spritePixel s.ppu))))).mapPpu
      fun q => { q with s0hit := q.s0hit || hitsSprite0 q }
  else if s.ppu.scanline = 240 ∧ s.ppu.dot = 0 then s.callSink .presentFrame
  else s

/-- R902: the PPU's dot. -/
def ppuDot (s : State) : State :=
  let s := pixelStep (vblankEvents s)
  s.mapPpu fun q => advance s.cfg (sprPipeline s.cfg.mirroring (bgPipeline s.cfg.mirroring q))

end Sys2Proof.Machine
end

