-- ==== Sys2Proof/Machine/Scheduler.lean ====
section
/-! DEFINITION. Machine/Scheduler.lean: the clock unit (spec/52 R1100 to R1121), the instruction boundary (spec/60 R1201) and the machine step
(R1101). -/

namespace Sys2Proof.Machine

/-! ## The dot step -/

/-- R1101: the delayed writes due at this timestamp leave the queue and are applied, in queue order. -/
def applyDue (s : State) : State :=
  (s.wq.filter fun e => e.target == s.dotsTotal).foldl (fun t e => applyRegWrite e.reg e.byte t)
    { s with wq := s.wq.filter fun e => e.target != s.dotsTotal }

/-- R1101, R1102: one dot step. -/
def dotStep (s : State) : State :=
  let t := ppuDot (applyDue s)
  { t with dotsTotal := t.dotsTotal + 1 }

/-- R1100: the three dot steps of a tick. -/
def dots (s : State) : State := dotStep (dotStep (dotStep s))

/-! ## The processor tick -/

/-- R303: fetch, decode, execute. -/
def fetchExecute (s : State) : Result :=
  let f := fetchInstr s
  exec f.1 f.2

/-- R1201: which interrupt is taken at a boundary: NMI, then reset, then IRQ with `I` clear. -/
def pendingInterrupt (s : State) : Option IntKind :=
  if s.nmiLine then some .nmi
  else if s.cpu.resetPending then some .reset
  else if s.host.irqLine && !getFlag .i s.cpu.p then some .irq
  else none

/-- R1201: the boundary: one service or one instruction. -/
def boundary (s : State) : Result :=
  match pendingInterrupt s with
  | some k => .next (service k s)
  | none => fetchExecute s

/-- R1110: one tick of the budget.  A cost of 0, which a parameter can give and the spec does not foresee ("every cost is at least 2"), takes
one tick, as a cost of 1 does: the subtraction stops at 0 (DESIGN CHOICE, log 21). -/
def State.spend (s : State) : State := s.mapCpu fun c => { c with budget := c.budget - 1 }

/-- R1110: the processor tick.  A decode failure has no cost and leaves the budget (R1241). -/
def cpuTick (s : State) : Result :=
  if s.cpu.fault.isSome then .next s
  else if s.cpu.budget = 0 then
    match boundary s with
    | .next t => .next (if t.cpu.fault.isSome then t else t.spend)
    | .fault r => .fault r
    | .refused r => .refused r
  else .next s.spend

/-! ## The machine step -/

/-- What `MachineStep` answers the host (R1101). -/
inductive StepResult
  | ran
  | halted
  | faulted (f : DecodeFault)
  deriving DecidableEq, Repr

/-- What the host sets before a step, taken at its start (R1105, R1130, R1310; log 5, log 16); the calls of the step before are let
go (log 7). -/
def takeInputs (s : State) : State :=
  match s.host.inputs with
  | [] => { s with host := { s.host with calls := [] } }
  | i :: rest =>
    { s with
      cpu := { s.cpu with resetPending := s.cpu.resetPending || i.resetReq }
      host := { s.host with run := i.run, irqLine := i.irqLine, sinkReady := i.sinkReady, inputs := rest, calls := [] } }

/-- The result of a step that ran its tick (R1101). -/
def ranOrFaulted (t : State) : StepResult :=
  match t.cpu.fault with
  | some f => .faulted f
  | none => .ran

/-- R1101: `MachineStep`: halted, or faulted already, or three dots and a tick. -/
def machineStep (s : State) : Host.Outcome (State × StepResult) Fault Refusal :=
  let t := takeInputs s
  if t.host.run then
    match t.cpu.fault with
    | some f => .next (t, .faulted f)
    | none =>
      match cpuTick (dots t) with
      | .next u => .next (u, ranOrFaulted u)
      | .fault r => .fault r
      | .refused r => .refused r
  else .next (t, .halted)

/-- The step as an outcome: a machine that had faulted before the step stops; the step at which it faults still gives its state,
with the failure recorded in it (R1101, R1240; log 8).  A halted machine stands still (R1105; log 9). -/
def stepOutcome (s : State) : Result :=
  match machineStep s with
  | .next (t, .faulted f) => if s.cpu.fault.isSome then .fault (.decodeFailure f.opcode f.addr) else .next t
  | .next (t, .ran) => .next t
  | .next (t, .halted) => .next t
  | .fault r => .fault r
  | .refused r => .refused r

/-! ## Placing an instruction where the next step fetches (log 12) -/

/-- Whether an address has memory a program's bytes can be placed in: work RAM or program ROM. -/
def placeable (cfg : Config) (a : Word) : Bool := deviceOf cfg a == .wram || deviceOf cfg a == .rom

/-- A byte of a program placed in work RAM or program ROM, as a loader places it. -/
def placeByte (a : Word) (b : Byte) (s : State) : State :=
  match deviceOf s.cfg a with
  | .wram => { s with wram := s.wram.write (wramIndex a) b }
  | .rom => { s with prg := s.prg.write (prgIndex s.cfg.prgBanks a) b }
  | .ppu => s
  | .pad => s
  | .unmapped => s

/-- Bytes placed from an address on, the address wrapping modulo 2^16 (R300). -/
def placeBytes (a : Word) : List Byte → State → State
  | [], s => s
  | b :: rest, s => placeBytes (a + 1) rest (placeByte a b s)

/-- PC where a whole instruction can be placed: left alone when its three bytes have memory behind them, else moved to `$8000`. -/
def placePc (s : State) : Word :=
  if placeable s.cfg s.cpu.pc && placeable s.cfg (s.cpu.pc + 1) && placeable s.cfg (s.cpu.pc + 2) then s.cpu.pc else 0x8000

/-- The machine made ready to fetch in the very next step: running, not faulted, at a boundary, nothing queued or pending. -/
def readyToFetch (s : State) : State :=
  { s with
    cpu := { s.cpu with budget := 0, fault := none, resetPending := false, pc := placePc s }
    nmiLine := false
    wq := []
    host := { s.host with run := true, irqLine := false, inputs := [] } }

/-- The NMI of vertical blank kept from arising in the step's own three dots. -/
def withoutNmiInDots (s : State) : State :=
  if (dots s).nmiLine then s.mapPpu fun q => { q with ctrl := q.ctrl &&& 0x7F } else s

/-- The bytes stored where the next step fetches. -/
def placeInstr (bytes : List Byte) (s : State) : State :=
  let t := readyToFetch s
  withoutNmiInDots (placeBytes t.cpu.pc bytes t)

end Sys2Proof.Machine
end

