-- ==== Sys2Proof/Machine/Step.lean ====
section
/-! DEFINITION. Machine/Step.lean: the machine's step (spec/52 R1101). -/

namespace Sys2Proof.Machine

/-- One `MachineStep` (R1101). -/
def step (s : State) : Host.Outcome State Fault Refusal := stepOutcome s

/-- The state with an instruction stored where `step` fetches its next one, and all set that its next step needs to fetch it
(log 12). -/
def State.withFetchWord (s : State) (nbits w : Nat) : State := placeInstr (tableBytes nbits w) s

end Sys2Proof.Machine
end

