-- ==== Sys2Proof/Safety.lean ====
section
/-! DEFINITION. Safety.lean: the machine invariant, and what a safe run is, in the terms the claims use. -/

namespace Sys2Proof.Machine

/-- R131: the machine has not stopped on a decode failure. -/
abbrev State.Running (s : State) : Prop := s.cpu.fault = none

/-- R111: in a live `P` bit 4 is 0 and bit 5 is 1.  R1241: a decode failure leaves the budget at 0. -/
abbrev Cpu.Legal (c : Cpu) : Prop :=
  getFlag .b c.p = false ∧ getFlag .u c.p = true ∧ (c.fault ≠ none → c.budget = 0)

/-- R150, R152: the PPU's position and counts are in range.  R160: its memories hold what their sizes allow. -/
abbrev Ppu.Legal (q : Ppu) : Prop :=
  q.scanline ≤ 261 ∧ q.dot ≤ 340 ∧ q.spr.length = 8 ∧ q.oam2Count ≤ 8 ∧
    Memory.ok oam2Size q.oam2 = true ∧ Memory.ok chrSize q.chr = true ∧ Memory.ok ciramSize q.ciram = true ∧
    Memory.ok palSize q.pal = true ∧ Memory.ok oamSize q.oam = true

/-- R1120: no queued write has been passed over. -/
abbrev State.QueueAhead (s : State) : Prop := ∀ e ∈ s.wq, s.dotsTotal ≤ e.target

/-- The machine invariant: legal registers and position, canonical memories of their sizes, no write passed over, the
controller's index in 0..8 (R172). -/
abbrev State.Inv (s : State) : Prop :=
  s.cpu.Legal ∧ s.ppu.Legal ∧ Memory.ok wramSize s.wram = true ∧ Memory.ok (prgSize s.cfg.prgBanks) s.prg = true ∧
    s.QueueAhead ∧ s.pad.index ≤ 8

/-- R1120: every queued write falls due while the budget of the instruction that made it runs out. -/
abbrev State.QueueTimely (s : State) : Prop :=
  ∀ e ∈ s.wq, s.dotsTotal ≤ e.target ∧ e.target ≤ s.dotsTotal + 3 * s.cpu.budget

/-! ## The cycles of the instruction descriptions, mode by mode -/

/-- The cycles of a reading instruction by mode (the "Cycles" lines of spec/40, spec/43, spec/46), less the page penalty. -/
def readCycles : Mode → Nat
  | .imm _ => 2
  | .zp _ => 3
  | .zpx _ => 4
  | .zpy _ => 4
  | .abs _ => 4
  | .absx _ => 4
  | .absy _ => 4
  | .izx _ => 6
  | .izy _ => 5
  | .implied => 0
  | .acc => 0
  | .ind _ => 0
  | .rel _ => 0

/-- The cycles of a storing instruction by mode (spec/40). -/
def storeCycles : Mode → Nat
  | .zp _ => 3
  | .zpx _ => 4
  | .zpy _ => 4
  | .abs _ => 4
  | .absx _ => 5
  | .absy _ => 5
  | .izx _ => 6
  | .izy _ => 6
  | .imm _ => 0
  | .implied => 0
  | .acc => 0
  | .ind _ => 0
  | .rel _ => 0

/-- The cycles of a read-modify-write instruction by mode (spec/44, spec/45, spec/48). -/
def modifyCycles : Mode → Nat
  | .acc => 2
  | .zp _ => 5
  | .zpx _ => 6
  | .abs _ => 6
  | .absx _ => 7
  | .absy _ => 7
  | .izx _ => 8
  | .izy _ => 8
  | .imm _ => 0
  | .zpy _ => 0
  | .implied => 0
  | .ind _ => 0
  | .rel _ => 0

end Sys2Proof.Machine

namespace Sys2Proof

/-- The parameters R1120 speaks of: the table's costs and the delay of three dots (spec/00 R9). -/
abbrev Config.StandardTiming (cfg : Config) : Prop := cfg.cycleOverrides = [] ∧ cfg.writeDelayDots = 3

end Sys2Proof
end

