-- ==== Sys2Proof/Certificates/Slice0/Obligations.lean ====
section
/-! DEFINITION. Certificates/Slice0/Obligations.lean: the statements about the machine, each from the rules of spec/ its docstring
names. -/

namespace Sys2Proof.Claims

open Sys2Proof.Machine

/-- Every flag outside a list is as before. -/
def keepsFlagsBut (fs : List Flag) (before after : Byte) : Prop := ∀ f : Flag, f ∉ fs → getFlag f after = getFlag f before

/-- N is the result's bit 7, Z says that the result is 0, every flag outside `fs` is as before. -/
def flagsFrom (r : Byte) (fs : List Flag) (before after : Byte) : Prop :=
  getFlag .n after = decide (128 ≤ r.toNat) ∧ getFlag .z after = decide (r.toNat = 0) ∧ keepsFlagsBut fs before after

/-- The byte an instruction reads as its operand, and the state after the accesses that takes (spec/30 R310, R322). -/
def operand (i : Instr) (s : State) : Byte × State := load (resolve i.mode s).op (resolve i.mode s).st

/-- 1 when resolving the instruction's address crossed a page (R320). -/
def penalty (i : Instr) (s : State) : Nat := if (resolve i.mode s).pen then 1 else 0

/-- The processor after an instruction that wrote `P` and handed over a cost, its other registers being those of `c`. -/
def withStatus (c : Cpu) (p : Byte) (cost : Nat) : Cpu := { c with p := p, budget := cost }

/-- The instruction goes on with its operand read, and the processor is that of `regs` but for `P` and the cost; its N and Z come
from `r`, flags outside `fs` stay, and with the table's costs the cost is the mode's plus the page penalty. -/
def reads (i : Instr) (s : State) (regs : Cpu) (after : Byte → Prop) : Prop :=
  ∃ (p : Byte) (cost : Nat), exec i s = .next { (operand i s).2 with cpu := withStatus regs p cost } ∧ after p ∧
    (s.cfg.cycleOverrides = [] → cost = readCycles i.mode + penalty i s)

/-- A register instruction: two cycles, `regs` but for `P`, nothing outside the processor. -/
def works (i : Instr) (s : State) (regs : Cpu) (after : Byte → Prop) : Prop :=
  ∃ (p : Byte) (cost : Nat), exec i s = .next { s with cpu := withStatus regs p cost } ∧ after p ∧
    (s.cfg.cycleOverrides = [] → cost = 2)

/-- The cell of work RAM a stack pointer designates, `$0100 | S` (spec/42 R500). -/
def stackCell (sp : Byte) : Nat := 0x100 + sp.toNat

/-- Work RAM after a push of three bytes, the first pushed first (R500). -/
def pushed3 (m : Memory) (sp a b c : Byte) : Memory :=
  ((m.write (stackCell sp) a).write (stackCell (sp - 1)) b).write (stackCell (sp - 2)) c

/-- The 16-bit address held in two consecutive ROM bytes, low byte first (spec/20 R220, R232). -/
def vectorAt (a : Word) (s : State) : Word := BitVec.ofNat 16 ((peek a s).toNat + 256 * (peek (a + 1) s).toNat)

/-- Two processor addresses have one and the same byte of memory behind them. -/
def sameCell (cfg : Config) (a b : Word) : Prop :=
  deviceOf cfg a = deviceOf cfg b ∧
    match deviceOf cfg a with
    | .wram => wramIndex a = wramIndex b
    | .rom => prgIndex cfg.prgBanks a = prgIndex cfg.prgBanks b
    | .ppu => a = b
    | .pad => a = b
    | .unmapped => a = b

/-- The cell behind an address of the PPU bus (R240, R241, R242): pattern memory, the nametable byte, the palette byte. -/
def ppuCell (mir : Mirroring) (a : Word) : Nat :=
  let n := a.toNat % 0x4000
  if n < 0x2000 then n
  else if n < 0x3F00 then 0x2000 + ntIndex mir (BitVec.ofNat 16 n)
  else 0x3F00 + palIndex (BitVec.ofNat 16 n)

/-- The background pixel of a visible dot as a number (spec/50 R920). -/
def backgroundIndex (q : Ppu) : Nat :=
  let bit (r : BitVec 16) : Nat := (r.getLsbD (15 - q.fineX.toNat)).toNat
  if q.mask.getLsbD 3 then 8 * bit q.bgAt1 + 4 * bit q.bgAt0 + 2 * bit q.bgHi + bit q.bgLo else 0

/-- The two pattern bits a slot shows, as a number (spec/50 R935). -/
def slotBits (sl : Slot) : Nat := 2 * (sl.hi.toNat / 128) + sl.lo.toNat / 128

/-- A slot whose pixel is opaque at this dot (R935). -/
def opaqueSlot (sl : Slot) : Prop := sl.active = true ∧ slotBits sl ≠ 0

/-- The composed palette index of a visible dot, by the cases of R940: the first active opaque slot of R935 wins over a transparent
background pixel, and over an opaque one when its attribute bit 5 is clear; with no such slot, or with sprites off, the background
pixel; a transparent background pixel is index 0. -/
def composedIs (q : Ppu) (idx : Nat) : Prop :=
  let bg := backgroundIndex q
  (∀ before sl after, q.mask.getLsbD 4 = true → q.spr = before ++ sl :: after → (∀ o ∈ before, ¬opaqueSlot o) → opaqueSlot sl →
    idx = if bg % 4 = 0 ∨ sl.attr.getLsbD 5 = false then 16 + 4 * (sl.attr.toNat % 4) + slotBits sl else bg) ∧
  (q.mask.getLsbD 4 = false ∨ (∀ o ∈ q.spr, ¬opaqueSlot o) → idx = if bg % 4 = 0 then 0 else bg)

/-- Whether the background pipeline works at a position: its gate, the rendering lines, the fetch windows (spec/50 R905, R910). -/
def bgWorks (q : Ppu) : Bool :=
  q.mask.getLsbD 3 && decide ((q.scanline ≤ 239 ∨ q.scanline = 261) ∧ ((1 ≤ q.dot ∧ q.dot ≤ 256) ∨ (321 ≤ q.dot ∧ q.dot ≤ 336)))

/-- Whether the background pipeline works at the dot of a group of eight that is `k` modulo 8 (R910). -/
def bgWorksAt (k : Nat) (q : Ppu) : Bool := bgWorks q && decide (q.dot % 8 = k)

/-- Whether the sprite pipeline works at a position: its gate and the rendering lines (R905, R931, R932). -/
def spriteWorks (q : Ppu) : Prop := q.mask.getLsbD 4 = true ∧ (q.scanline ≤ 239 ∨ q.scanline = 261)

/-- R330: the map's cells of the mode `impl`: opcode, instruction, mnemonic. -/
def impliedRows : List (Byte × Instr × Mnemonic) :=
  [(0x00, .brk, .brk), (0x08, .php, .php), (0x18, .clc, .clc), (0x28, .plp, .plp), (0x38, .sec, .sec), (0x40, .rti, .rti),
   (0x48, .pha, .pha), (0x58, .cli, .cli), (0x60, .rts, .rts), (0x68, .pla, .pla), (0x78, .sei, .sei), (0x88, .dey, .dey),
   (0x8A, .txa, .txa), (0x98, .tya, .tya), (0x9A, .txs, .txs), (0xA8, .tay, .tay), (0xAA, .tax, .tax), (0xB8, .clv, .clv),
   (0xBA, .tsx, .tsx), (0xC8, .iny, .iny), (0xCA, .dex, .dex), (0xD8, .cld, .cld), (0xE8, .inx, .inx), (0xEA, .nop, .nop),
   (0xF8, .sed, .sed)]

/-- R330: the map's cells of the mode `acc`: opcode, instruction, mnemonic. -/
def accRows : List (Byte × Instr × Mnemonic) :=
  [(0x0A, .aslAcc, .asl), (0x2A, .rolAcc, .rol), (0x4A, .lsrAcc, .lsr), (0x6A, .rorAcc, .ror)]

/-- R330: the map's cells of the mode `imm`: opcode, instruction, mnemonic. -/
def immRows : List (Byte × (Byte → Instr) × Mnemonic) :=
  [(0x09, .oraImm, .ora), (0x29, .andImm, .and), (0x49, .eorImm, .eor), (0x69, .adcImm, .adc), (0xA0, .ldyImm, .ldy),
   (0xA2, .ldxImm, .ldx), (0xA9, .ldaImm, .lda), (0xC0, .cpyImm, .cpy), (0xC9, .cmpImm, .cmp), (0xE0, .cpxImm, .cpx),
   (0xE9, .sbcImm, .sbc)]

/-- R330: the map's cells of the mode `zp`: opcode, instruction, mnemonic. -/
def zpRows : List (Byte × (Byte → Instr) × Mnemonic) :=
  [(0x05, .oraZp, .ora), (0x06, .aslZp, .asl), (0x24, .bitZp, .bit), (0x25, .andZp, .and), (0x26, .rolZp, .rol),
   (0x45, .eorZp, .eor), (0x46, .lsrZp, .lsr), (0x65, .adcZp, .adc), (0x66, .rorZp, .ror), (0x84, .styZp, .sty),
   (0x85, .staZp, .sta), (0x86, .stxZp, .stx), (0xA4, .ldyZp, .ldy), (0xA5, .ldaZp, .lda), (0xA6, .ldxZp, .ldx),
   (0xC4, .cpyZp, .cpy), (0xC5, .cmpZp, .cmp), (0xC6, .decZp, .dec), (0xE4, .cpxZp, .cpx), (0xE5, .sbcZp, .sbc),
   (0xE6, .incZp, .inc), (0xE7, .iscZp, .isc)]

/-- R330: the map's cells of the mode `zpx`: opcode, instruction, mnemonic. -/
def zpxRows : List (Byte × (Byte → Instr) × Mnemonic) :=
  [(0x15, .oraZpx, .ora), (0x16, .aslZpx, .asl), (0x35, .andZpx, .and), (0x36, .rolZpx, .rol), (0x55, .eorZpx, .eor),
   (0x56, .lsrZpx, .lsr), (0x75, .adcZpx, .adc), (0x76, .rorZpx, .ror), (0x94, .styZpx, .sty), (0x95, .staZpx, .sta),
   (0xB4, .ldyZpx, .ldy), (0xB5, .ldaZpx, .lda), (0xD5, .cmpZpx, .cmp), (0xD6, .decZpx, .dec), (0xF5, .sbcZpx, .sbc),
   (0xF6, .incZpx, .inc), (0xF7, .iscZpx, .isc)]

/-- R330: the map's cells of the mode `zpy`: opcode, instruction, mnemonic. -/
def zpyRows : List (Byte × (Byte → Instr) × Mnemonic) :=
  [(0x96, .stxZpy, .stx), (0xB6, .ldxZpy, .ldx)]

/-- R330: the map's cells of the mode `izx`: opcode, instruction, mnemonic. -/
def izxRows : List (Byte × (Byte → Instr) × Mnemonic) :=
  [(0x01, .oraIzx, .ora), (0x21, .andIzx, .and), (0x41, .eorIzx, .eor), (0x61, .adcIzx, .adc), (0x81, .staIzx, .sta),
   (0xA1, .ldaIzx, .lda), (0xC1, .cmpIzx, .cmp), (0xE1, .sbcIzx, .sbc), (0xE3, .iscIzx, .isc)]

/-- R330: the map's cells of the mode `izy`: opcode, instruction, mnemonic. -/
def izyRows : List (Byte × (Byte → Instr) × Mnemonic) :=
  [(0x11, .oraIzy, .ora), (0x31, .andIzy, .and), (0x51, .eorIzy, .eor), (0x71, .adcIzy, .adc), (0x91, .staIzy, .sta),
   (0xB1, .ldaIzy, .lda), (0xD1, .cmpIzy, .cmp), (0xF1, .sbcIzy, .sbc), (0xF3, .iscIzy, .isc)]

/-- R330: the map's cells of the mode `rel`: opcode, instruction, mnemonic. -/
def relRows : List (Byte × (Byte → Instr) × Mnemonic) :=
  [(0x10, .bpl, .bpl), (0x30, .bmi, .bmi), (0x50, .bvc, .bvc), (0x70, .bvs, .bvs), (0x90, .bcc, .bcc), (0xB0, .bcs, .bcs),
   (0xD0, .bne, .bne), (0xF0, .beq, .beq)]

/-- R330: the map's cells of the mode `abs`: opcode, instruction, mnemonic. -/
def absRows : List (Byte × (Word → Instr) × Mnemonic) :=
  [(0x0D, .oraAbs, .ora), (0x0E, .aslAbs, .asl), (0x20, .jsr, .jsr), (0x2C, .bitAbs, .bit), (0x2D, .andAbs, .and),
   (0x2E, .rolAbs, .rol), (0x4C, .jmpAbs, .jmp), (0x4D, .eorAbs, .eor), (0x4E, .lsrAbs, .lsr), (0x6D, .adcAbs, .adc),
   (0x6E, .rorAbs, .ror), (0x8C, .styAbs, .sty), (0x8D, .staAbs, .sta), (0x8E, .stxAbs, .stx), (0xAC, .ldyAbs, .ldy),
   (0xAD, .ldaAbs, .lda), (0xAE, .ldxAbs, .ldx), (0xCC, .cpyAbs, .cpy), (0xCD, .cmpAbs, .cmp), (0xCE, .decAbs, .dec),
   (0xEC, .cpxAbs, .cpx), (0xED, .sbcAbs, .sbc), (0xEE, .incAbs, .inc), (0xEF, .iscAbs, .isc)]

/-- R330: the map's cells of the mode `absx`: opcode, instruction, mnemonic. -/
def absxRows : List (Byte × (Word → Instr) × Mnemonic) :=
  [(0x1D, .oraAbsx, .ora), (0x1E, .aslAbsx, .asl), (0x3D, .andAbsx, .and), (0x3E, .rolAbsx, .rol), (0x5D, .eorAbsx, .eor),
   (0x5E, .lsrAbsx, .lsr), (0x7D, .adcAbsx, .adc), (0x7E, .rorAbsx, .ror), (0x9D, .staAbsx, .sta), (0xBC, .ldyAbsx, .ldy),
   (0xBD, .ldaAbsx, .lda), (0xDD, .cmpAbsx, .cmp), (0xDE, .decAbsx, .dec), (0xFD, .sbcAbsx, .sbc), (0xFE, .incAbsx, .inc),
   (0xFF, .iscAbsx, .isc)]

/-- R330: the map's cells of the mode `absy`: opcode, instruction, mnemonic. -/
def absyRows : List (Byte × (Word → Instr) × Mnemonic) :=
  [(0x19, .oraAbsy, .ora), (0x39, .andAbsy, .and), (0x59, .eorAbsy, .eor), (0x79, .adcAbsy, .adc), (0x99, .staAbsy, .sta),
   (0xB9, .ldaAbsy, .lda), (0xBE, .ldxAbsy, .ldx), (0xD9, .cmpAbsy, .cmp), (0xF9, .sbcAbsy, .sbc), (0xFB, .iscAbsy, .isc)]

/-- R330: the map's cells of the mode `ind`: opcode, instruction, mnemonic. -/
def indRows : List (Byte × (Word → Instr) × Mnemonic) :=
  [(0x6C, .jmpInd, .jmp)]

end Sys2Proof.Claims

open Sys2Proof Sys2Proof.Machine Sys2Proof.Claims

/-! ## Encoding -/

/-- No bit of an instruction is lost in its bytes: decoding what a well-formed instruction is encoded as gives it back, with what
followed (spec/30 R300, R330). -/
def Obligations.DecodeOfEncodeIsTheInstruction : Prop :=
  ∀ (cfg : Config) (i : Instr) (rest : List Byte), i.wf cfg = true → decode cfg (encode i ++ rest) = .ok (i, rest)

/-- Decoding loses no bit either: what it answers is an instruction the machine has, and encodes as the bytes read. -/
def Obligations.EncodeOfDecodeIsTheBytes : Prop :=
  ∀ (cfg : Config) (bytes rest : List Byte) (i : Instr), decode cfg bytes = .ok (i, rest) →
    i.wf cfg = true ∧ encode i ++ rest = bytes

/-- Words written out from R330's map and R300's formats decode to the instruction they stand for, one of each family. -/
def Obligations.SampleWordsDecodeAsTheManualSays : Prop :=
  decodeTableWord 16 0x42A9 = some (.ldaImm 0x42) ∧ decodeTableWord 24 0x03008D = some (.staAbs 0x0300) ∧
  decodeTableWord 8 0xAA = some .tax ∧ decodeTableWord 8 0x08 = some .php ∧ decodeTableWord 16 0x1024 = some (.bitZp 0x10) ∧
  decodeTableWord 24 0x02FFFE = some (.incAbsx 0x02FF) ∧ decodeTableWord 8 0x6A = some .rorAcc ∧
  decodeTableWord 16 0x1071 = some (.adcIzy 0x10) ∧ decodeTableWord 16 0xFBD0 = some (.bne 0xFB) ∧
  decodeTableWord 24 0x12346C = some (.jmpInd 0x1234) ∧ decodeTableWord 8 0x58 = some .cli ∧
  decodeTableWord 16 0x20E3 = some (.iscIzx 0x20) ∧ decodeTableWord 8 0x02 = some (.decodeFailure 0x02)

/-- R330, R331: every byte of the opcode map decodes to its cell's instruction, which has the cell's mnemonic, mode and opcode (an
ISC byte when it is in `ISC_OPCODES`); the bytes that decode to a decode failure are the 98 listed and any ISC byte taken out of
`ISC_OPCODES`. -/
def Obligations.UnlistedOpcodesAreDecodeFailures : Prop :=
  illegalOpcodes.Nodup ∧ illegalOpcodes.length = 98 ∧
  ∀ (cfg : Config) (opc b c : Byte),
    (decodeOp cfg opc b c = .decodeFailure opc ↔
      opc ∈ illegalOpcodes ∨ (opc ∈ ([0xE3, 0xE7, 0xEF, 0xF3, 0xF7, 0xFB, 0xFF] : List Byte) ∧ opc ∉ cfg.iscOpcodes)) ∧
    (decodeOp cfg opc b c).opcode = opc ∧
    (Instr.decodeFailure opc).mnemonic = .decodeFailure ∧
    let w : Word := BitVec.ofNat 16 (b.toNat + 256 * c.toNat)
    let cell (o : Byte) (i : Instr) (m : Mnemonic) (mode : Mode) : Prop :=
      (m ≠ .isc ∨ o ∈ cfg.iscOpcodes → decodeOp cfg o b c = i) ∧ i.mnemonic = m ∧ i.mode = mode ∧ i.opcode = o
    (∀ r ∈ impliedRows, cell r.1 r.2.1 r.2.2 .implied) ∧ (∀ r ∈ accRows, cell r.1 r.2.1 r.2.2 .acc) ∧
    (∀ r ∈ immRows, cell r.1 (r.2.1 b) r.2.2 (.imm b)) ∧ (∀ r ∈ zpRows, cell r.1 (r.2.1 b) r.2.2 (.zp b)) ∧
    (∀ r ∈ zpxRows, cell r.1 (r.2.1 b) r.2.2 (.zpx b)) ∧ (∀ r ∈ zpyRows, cell r.1 (r.2.1 b) r.2.2 (.zpy b)) ∧
    (∀ r ∈ izxRows, cell r.1 (r.2.1 b) r.2.2 (.izx b)) ∧ (∀ r ∈ izyRows, cell r.1 (r.2.1 b) r.2.2 (.izy b)) ∧
    (∀ r ∈ relRows, cell r.1 (r.2.1 b) r.2.2 (.rel b)) ∧ (∀ r ∈ absRows, cell r.1 (r.2.1 w) r.2.2 (.abs w)) ∧
    (∀ r ∈ absxRows, cell r.1 (r.2.1 w) r.2.2 (.absx w)) ∧ (∀ r ∈ absyRows, cell r.1 (r.2.1 w) r.2.2 (.absy w)) ∧
    (∀ r ∈ indRows, cell r.1 (r.2.1 w) r.2.2 (.ind w))

/-! ## Fetching and stepping -/

/-- R302, R303, R253: fetching is one bus read at PC for each byte of the instruction, in order, with what those reads do, and PC
past them; where the bytes lie in work RAM or program ROM it so reads the instruction the bytes at PC decode to, and changes nothing
but PC. -/
def Obligations.FetchReadsTheInstructionAtPc : Prop :=
  ∀ s : State,
    let o := busRead s.cpu.pc s
    let b := busRead (s.cpu.pc + 1) o.2
    let c := busRead (s.cpu.pc + 2) b.2
    let n := (encode (decodeOp s.cfg o.1 0 0)).length
    (n = 2 → fetchInstr s = (decodeOp s.cfg o.1 b.1 0, b.2.setPc (s.cpu.pc + 2))) ∧
    (n = 3 → fetchInstr s = (decodeOp s.cfg o.1 b.1 c.1, c.2.setPc (s.cpu.pc + 3))) ∧
    (n ≠ 2 → n ≠ 3 → fetchInstr s = (decodeOp s.cfg o.1 0 0, o.2.setPc (s.cpu.pc + 1))) ∧
    ∀ (i : Instr) (rest : List Byte),
      (∀ k, k < (encode i).length → placeable s.cfg (s.cpu.pc + BitVec.ofNat 16 k) = true) →
      decode s.cfg [peek s.cpu.pc s, peek (s.cpu.pc + 1) s, peek (s.cpu.pc + 2) s] = .ok (i, rest) →
      fetchInstr s = (i, { s with cpu := { s.cpu with pc := s.cpu.pc + BitVec.ofNat 16 (encode i).length } })

/-- R1101, R1110, R1201, R302, R303: a running machine at a boundary with no interrupt to take after its three dots runs exactly the
instruction its bytes at PC decode to, PC past them, then counts the tick. Where the instruction is a decode failure the tick counts
nothing; that this step answers a next state, with the failure recorded in it, is the model's choice (log 8, DESIGN CHOICE: R1101
has that `MachineStep` return `Faulted`), and so is that a cost of 0, which only a parameter can give, takes one tick (log 21,
DESIGN CHOICE). -/
def Obligations.StepRunsTheDecodedInstruction : Prop :=
  ∀ (s t : State) (i : Instr) (rest : List Byte),
    (takeInputs s).host.run = true → s.cpu.fault = none → s.cpu.budget = 0 →
    pendingInterrupt (dots (takeInputs s)) = none →
    (∀ k, k < (encode i).length → placeable s.cfg (s.cpu.pc + BitVec.ofNat 16 k) = true) →
    decode s.cfg [peek s.cpu.pc s, peek (s.cpu.pc + 1) s, peek (s.cpu.pc + 2) s] = .ok (i, rest) →
    exec i ((dots (takeInputs s)).setPc (s.cpu.pc + BitVec.ofNat 16 (encode i).length)) = .next t →
    step s = .next (if t.cpu.fault = none then { t with cpu := { t.cpu with budget := t.cpu.budget - 1 } } else t)

/-! ## Invariants -/

/-- R111, R150, R152, R160, R172, R1120, R1241: every step keeps the machine invariant, from every state that meets it. -/
def Obligations.EveryStepKeepsTheMachineInvariant : Prop :=
  ∀ s t : State, s.Inv → step s = .next t → t.Inv

/-- R1300, R1301, R1245: the machine invariant holds at power-on of a valid image, whatever legal first contents are given. -/
def Obligations.PowerOnMeetsTheMachineInvariant : Prop :=
  State.reset.Inv ∧
  ∀ (cfg : Config) (image : Cartridge) (init : PowerOnInit) (s : State),
    State.powerOnChecked cfg image init = some s →
    Memory.ok wramSize init.wram = true → Memory.ok ciramSize init.ciram = true → Memory.ok palSize init.pal = true →
    Memory.ok oamSize init.oam = true → Memory.ok oam2Size init.ppu.oam2 = true → init.ppu.spr.length = 8 → init.ppu.oam2Count ≤ 8 →
    s.Inv

/-- R1300, R1301: what power-on leaves in the processor and the memories it loads: `S = $FF`, `P = $24`, PC from the reset vector,
`w = 0`, nothing pushed. That no reset is pending and the budget is 0 are the spec's own decisions (D43, D45). -/
def Obligations.PowerOnLoadsPcFromTheResetVector : Prop :=
  ∀ (cfg : Config) (image : Cartridge) (init : PowerOnInit),
    let s := State.powerOn cfg image init
    s.cpu.s = 0xFF ∧ s.cpu.p = 0x24 ∧ s.cpu.pc = vectorAt 0xFFFC s ∧ s.ppu.w = false ∧ s.cpu.budget = 0 ∧
      s.cpu.resetPending = false ∧ s.wram = init.wram ∧ s.prg = image.prg ∧ s.ppu.chr = image.chr

/-- R1120: with the table's costs and a delay of three dots, every queued write falls due before the next boundary: the bound holds
step by step, and at a boundary tick the queue is empty when the processor's turn comes. -/
def Obligations.DelayedWritesLandBeforeTheNextBoundary : Prop :=
  ∀ s : State, s.cfg.StandardTiming → s.QueueTimely →
    (∀ t, step s = .next t → t.QueueTimely) ∧
    ((takeInputs s).host.run = true → s.cpu.fault = none → s.cpu.budget = 0 → (dots (takeInputs s)).wq = [])

/-- R204, R160: program ROM is immutable after load, and the parameters are fixed: no step changes either. -/
def Obligations.NoStepWritesProgramRom : Prop :=
  ∀ s t : State, step s = .next t → t.prg = s.prg ∧ t.cfg = s.cfg

/-- R1131: the CORE's state does not depend on `sink_ready`: two machines that differ in it and in the calls recorded go on
differing in nothing else. -/
def Obligations.SinkReadinessNeverReachesTheCore : Prop :=
  ∀ (s t : State) (ready : Bool) (calls : List HostCall), step s = .next t →
    ∃ (ready' : Bool) (calls' : List HostCall),
      step { s with host := { s.host with sinkReady := ready, calls := calls } }
        = .next { t with host := { t.host with sinkReady := ready', calls := calls' } }

/-- R1230, R1240: none but a byte that is no opcode touches `cpu_fault`; that one records the byte and its address, leaves PC there,
and changes nothing else. Every instruction answers a next state; that the decode failure does, with the failure recorded in it, is
the model's choice (log 8, DESIGN CHOICE). -/
def Obligations.OnlyADecodeFailureFaults : Prop :=
  ∀ (i : Instr) (s : State), ∃ t, exec i s = .next t ∧
    (i.mnemonic ≠ .decodeFailure → t.cpu.fault = s.cpu.fault) ∧
    (i.mnemonic = .decodeFailure →
      t = { s with cpu := { s.cpu with pc := s.cpu.pc - 1, fault := some ⟨i.opcode, s.cpu.pc - 1⟩ } })

/-! ## The buses -/

/-- R202, R204, R205: a byte written to work RAM goes to the cell of its low 11 bits, reads back at every mirror and changes nothing
else; a write to program ROM or to an unmapped address changes no byte; an unmapped address reads 0. -/
def Obligations.BusWritesReachTheirByteOnly : Prop :=
  ∀ (s : State) (a b : Word) (v : Byte), s.wram.wf = true →
    (a.toNat < 0x2000 → busWrite a v s = { s with wram := s.wram.write (a.toNat % 0x800) v }) ∧
    (a.toNat < 0x2000 → b.toNat < 0x2000 → b.toNat % 0x800 = a.toNat % 0x800 → busRead b (busWrite a v s) = (v, busWrite a v s)) ∧
    (¬ (deviceOf s.cfg a = .wram ∧ sameCell s.cfg a b) → peek b (busWrite a v s) = peek b s) ∧
    (0x8000 ≤ a.toNat → busWrite a v s = s) ∧
    (0x4000 ≤ a.toNat → a.toNat < 0x8000 → (a ≠ 0x4016 ∨ s.cfg.controller = .absent) →
      busWrite a v s = { s with host := { s.host with calls := s.host.calls ++ [.traceWrite a] } } ∧
      busRead a s = (0, { s with host := { s.host with calls := s.host.calls ++ [.traceRead a] } }))

/-- R207, R202, R204: in work RAM and program ROM a read answers the byte there, by the low 11 bits of the address in RAM and the
low 14 or 15 in ROM, and changes nothing; R201, R203, R1001: a read of the PPU window is the read of its register, the address
modulo 8, with what that does to the PPU; R1002: the six registers that are not 2 and 7 read 0 and change nothing; R203: the window
is mirrored every 8 bytes, for reads and writes. -/
def Obligations.OtherReadsHaveNoSideEffect : Prop :=
  ∀ (s : State) (a : Word),
    (a.toNat < 0x2000 ∨ 0x8000 ≤ a.toNat → busRead a s = (peek a s, s)) ∧
    (a.toNat < 0x2000 → peek a s = s.wram.read (a.toNat % 0x800)) ∧
    (0x8000 ≤ a.toNat → peek a s = s.prg.read (a.toNat % match s.cfg.prgBanks with | .one => 0x4000 | .two => 0x8000)) ∧
    (0x2000 ≤ a.toNat → a.toNat < 0x4000 →
      let r : RegIndex := BitVec.ofNat 3 (a.toNat % 8)
      (busRead a s = ((ppuRegRead s.cfg.mirroring r s.ppu).1, { s with ppu := (ppuRegRead s.cfg.mirroring r s.ppu).2 })) ∧
      (a.toNat % 8 ≠ 2 → a.toNat % 8 ≠ 7 → busRead a s = (0, s)) ∧
      ∀ (b : Word) (v : Byte), 0x2000 ≤ b.toNat → b.toNat < 0x4000 → a.toNat % 8 = b.toNat % 8 →
        busRead a s = busRead b s ∧ busWrite a v s = busWrite b v s)

/-- R212 (D21; the spec's own choice of port and protocol): with the standard controller a write to `$4016` sets the strobe and,
with bit 0 set, the index to 0; a read answers the button of line 0 under strobe, else the next of eight lines, then 1. The answers
are the host's, whatever they are. -/
def Obligations.ControllerPortShiftsEightButtons : Prop :=
  ∀ (s : State) (b : Byte), s.cfg.controller = .standard →
    busWrite 0x4016 b s = { s with pad := { strobe := b.getLsbD 0, index := if b.getLsbD 0 then 0 else s.pad.index } } ∧
    (s.pad.strobe = true → (busRead 0x4016 s).1 = (if (pollButton 0 s).1 then 1 else 0) ∧ (busRead 0x4016 s).2.pad = s.pad) ∧
    (s.pad.strobe = false → s.pad.index < 8 →
      (busRead 0x4016 s).1 = (if (pollButton s.pad.index s).1 then 1 else 0) ∧
      (busRead 0x4016 s).2.pad = { s.pad with index := s.pad.index + 1 }) ∧
    (s.pad.strobe = false → 8 ≤ s.pad.index → busRead 0x4016 s = (1, s)) ∧
    (∀ line, (busRead 0x4016 s).2.cpu = s.cpu ∧ (busRead 0x4016 s).2.ppu = s.ppu ∧
      (∀ c rest, s.host.buttons = c :: rest → (pollButton line s).1 = c ∧ (pollButton line s).2.host.buttons = rest))

/-- R240, R242, R243: a PPU bus address is taken modulo 2^14 and is pattern memory below `$2000`, a nametable byte below `$3F00`, a
palette byte above; a byte written reads back at every address that reaches the same cell (nametables mirrored; palette aliased),
pattern memory included, every other cell reads as before, and nothing but the three memories changes; the palette's cells in
numbers. -/
def Obligations.PpuBusReadsBackWhatWasWritten : Prop :=
  ∀ (mir : Mirroring) (q : Ppu) (a b : Word) (v : Byte),
    let n := a.toNat % 0x4000
    let t := ppuWrite mir a v q
    (n < 0x2000 → ppuRead mir a q = q.chr.read n) ∧
    (0x2000 ≤ n → n < 0x3F00 → ppuRead mir a q = q.ciram.read (ntIndex mir (BitVec.ofNat 16 n))) ∧
    (0x3F00 ≤ n → ppuRead mir a q = q.pal.read (palIndex a)) ∧
    t = { q with chr := t.chr, ciram := t.ciram, pal := t.pal } ∧
    palIndex a = (if a.toNat % 4 = 0 then a.toNat % 16 else a.toNat % 32) ∧
    (q.chr.wf = true → q.ciram.wf = true → q.pal.wf = true →
      ppuRead mir b t = if ppuCell mir b = ppuCell mir a then v else ppuRead mir b q)

/-- R241: nametable bytes one table apart are one byte or two, as the mirroring pairs them: tables 0 and 1, 2 and 3 under horizontal
mirroring, 0 and 2, 1 and 3 under vertical, the first pair the first 1 KB of nametable RAM; `$3000`-`$3EFF` are `$2000`-`$2EFF`. -/
def Obligations.NametablesAreMirroredInPairs : Prop :=
  ∀ (mir : Mirroring) (x y o : Nat), x < 4 → y < 4 → o < 0x400 →
    (ntIndex mir (BitVec.ofNat 16 (0x2000 + 0x400 * x + o)) = ntIndex mir (BitVec.ofNat 16 (0x2000 + 0x400 * y + o)) ↔
      (match mir with | .horizontal => x / 2 = y / 2 | .vertical => x % 2 = y % 2)) ∧
    (0x400 * x + o < 0xF00 →
      ntIndex mir (BitVec.ofNat 16 (0x3000 + 0x400 * x + o)) = ntIndex mir (BitVec.ofNat 16 (0x2000 + 0x400 * x + o))) ∧
    ntIndex mir (BitVec.ofNat 16 (0x2000 + 0x400 * x + o)) =
      0x400 * (match mir with | .horizontal => x / 2 | .vertical => x % 2) + o

/-! ## Addressing modes -/

/-- R310, R312, R313 (that the immediate byte is the fetched one is log 13's reading, DEDUCED), R314, R315, R316, R319, R320: what
every mode without a pointer resolves to, the effective addresses in numbers, and when it counts as a page crossing; resolving reads
nothing. Loading an operand is one bus read at the effective address, the immediate byte, or A. -/
def Obligations.DirectModesResolveInNumbers : Prop :=
  ∀ (s : State) (a : Byte) (w : Word),
    resolve .acc s = ⟨.acc, false, s⟩ ∧
    resolve (.imm a) s = ⟨.imm a, false, s⟩ ∧
    resolve (.zp a) s = ⟨.mem (BitVec.ofNat 16 a.toNat), false, s⟩ ∧
    resolve (.zpx a) s = ⟨.mem (BitVec.ofNat 16 ((a.toNat + s.cpu.x.toNat) % 256)), false, s⟩ ∧
    resolve (.zpy a) s = ⟨.mem (BitVec.ofNat 16 ((a.toNat + s.cpu.y.toNat) % 256)), false, s⟩ ∧
    resolve (.abs w) s = ⟨.mem w, false, s⟩ ∧
    resolve (.absx w) s = ⟨.mem (BitVec.ofNat 16 (w.toNat + s.cpu.x.toNat)), decide (255 < w.toNat % 256 + s.cpu.x.toNat), s⟩ ∧
    resolve (.absy w) s = ⟨.mem (BitVec.ofNat 16 (w.toNat + s.cpu.y.toNat)), decide (255 < w.toNat % 256 + s.cpu.y.toNat), s⟩ ∧
    load (.mem w) s = busRead w s ∧ load (.imm a) s = (a, s) ∧ load .acc s = (s.cpu.a, s)

/-- R317, R318: the two pointer modes: the pointer's bytes both lie in page zero, low byte first; `izy` adds Y to the pointer and
can cross a page. -/
def Obligations.PointerModesReadPageZero : Prop :=
  ∀ (s : State) (a : Byte),
    let byte (n : Nat) : Nat := (s.wram.read (n % 256)).toNat
    let p := a.toNat + s.cpu.x.toNat
    let base := byte a.toNat + 256 * byte (a.toNat + 1)
    resolve (.izx a) s = ⟨.mem (BitVec.ofNat 16 (byte p + 256 * byte (p + 1))), false, s⟩ ∧
    resolve (.izy a) s = ⟨.mem (BitVec.ofNat 16 (base + s.cpu.y.toNat)), decide (255 < base % 256 + s.cpu.y.toNat), s⟩

/-! ## Loads, stores and transfers -/

/-- R400, R401, R402, R403: LDA, LDX and LDY in every mode they have: the operand is read once, goes into the register, N and Z come
from it, and nothing else changes. -/
def Obligations.LoadsWriteTheirRegisterAndNZ : Prop :=
  ∀ (i : Instr) (s : State),
    let b := (operand i s).1
    (i.mnemonic = .lda → reads i s { s.cpu with a := b } (flagsFrom b [.n, .z] s.cpu.p)) ∧
    (i.mnemonic = .ldx → reads i s { s.cpu with x := b } (flagsFrom b [.n, .z] s.cpu.p)) ∧
    (i.mnemonic = .ldy → reads i s { s.cpu with y := b } (flagsFrom b [.n, .z] s.cpu.p))

/-- R400, R404, R405, R406: STA, STX and STY in every mode they have: one bus write of the register at the effective address, no
read there, no flag. -/
def Obligations.StoresWriteTheirRegisterOnce : Prop :=
  ∀ (i : Instr) (s : State), i.mnemonic = .sta ∨ i.mnemonic = .stx ∨ i.mnemonic = .sty →
    let r := if i.mnemonic = .sta then s.cpu.a else if i.mnemonic = .stx then s.cpu.x else s.cpu.y
    ∃ (ea : Word) (cost : Nat), (resolve i.mode s).op = .mem ea ∧
      exec i s = .next { busWrite ea r s with cpu := { s.cpu with budget := cost } } ∧
      (s.cfg.cycleOverrides = [] → cost = storeCycles i.mode)

/-- R450 to R456: each transfer copies its register and sets N and Z from the copy; TXS writes no flag. -/
def Obligations.TransfersCopyOneRegister : Prop :=
  ∀ s : State,
    works .tax s { s.cpu with x := s.cpu.a } (flagsFrom s.cpu.a [.n, .z] s.cpu.p) ∧
    works .tay s { s.cpu with y := s.cpu.a } (flagsFrom s.cpu.a [.n, .z] s.cpu.p) ∧
    works .txa s { s.cpu with a := s.cpu.x } (flagsFrom s.cpu.x [.n, .z] s.cpu.p) ∧
    works .tya s { s.cpu with a := s.cpu.y } (flagsFrom s.cpu.y [.n, .z] s.cpu.p) ∧
    works .tsx s { s.cpu with x := s.cpu.s } (flagsFrom s.cpu.s [.n, .z] s.cpu.p) ∧
    works .txs s { s.cpu with s := s.cpu.x } (fun p => p = s.cpu.p)

/-! ## Stack -/

/-- R500 (D40, D42), R502, R504: PHA and PHP write one byte at `$0100 | S` and count S down modulo 256; PHP's byte has bits 4 and 5
set; no flag is written. -/
def Obligations.PushesWriteOneStackByte : Prop :=
  ∀ s : State,
    let result (b : Byte) (cost : Nat) : State :=
      { s with wram := s.wram.write (stackCell s.cpu.s) b, cpu := { s.cpu with s := s.cpu.s - 1, budget := cost } }
    (∃ cost, exec .pha s = .next (result s.cpu.a cost) ∧ (s.cfg.cycleOverrides = [] → cost = 3)) ∧
    (∃ cost b, exec .php s = .next (result b cost) ∧ (s.cfg.cycleOverrides = [] → cost = 3) ∧
      ∀ f, getFlag f b = (getFlag f s.cpu.p || f == .b || f == .u))

/-- R500, R503 (D53), R505 (D7): PLA and PLP count S up modulo 256 and read the byte there; PLA sets N and Z; PLP takes the six
flags from the byte and leaves bit 4 at 0 and bit 5 at 1. -/
def Obligations.PullsReadOneStackByte : Prop :=
  ∀ s : State,
    let b := s.wram.read (stackCell (s.cpu.s + 1))
    (∃ p cost, exec .pla s = .next { s with cpu := { s.cpu with a := b, s := s.cpu.s + 1, p := p, budget := cost } } ∧
      flagsFrom b [.n, .z] s.cpu.p p ∧ (s.cfg.cycleOverrides = [] → cost = 4)) ∧
    (∃ p cost, exec .plp s = .next { s with cpu := { s.cpu with s := s.cpu.s + 1, p := p, budget := cost } } ∧
      (∀ f, getFlag f p = (f == .u || (f != .b && getFlag f b))) ∧ (s.cfg.cycleOverrides = [] → cost = 4))

/-! ## Logic, increments and shifts -/

/-- R550, R551, R552, R553: AND, EOR and ORA combine A with the operand bit by bit and set N and Z from the result. -/
def Obligations.LogicCombinesAWithTheOperand : Prop :=
  ∀ (i : Instr) (s : State) (r : Byte),
    let m := (operand i s).1
    ((i.mnemonic = .and ∧ ∀ k < 8, r.getLsbD k = (s.cpu.a.getLsbD k && m.getLsbD k)) ∨
      (i.mnemonic = .eor ∧ ∀ k < 8, r.getLsbD k = (s.cpu.a.getLsbD k != m.getLsbD k)) ∨
      (i.mnemonic = .ora ∧ ∀ k < 8, r.getLsbD k = (s.cpu.a.getLsbD k || m.getLsbD k))) →
    reads i s { s.cpu with a := r } (flagsFrom r [.n, .z] s.cpu.p)

/-- R550, R554: BIT writes Z from `A & m`, V and N from bits 6 and 7 of the operand, and leaves A. -/
def Obligations.BitTestsTheOperand : Prop :=
  ∀ (i : Instr) (s : State), i.mnemonic = .bit →
    let m := (operand i s).1
    reads i s s.cpu fun p =>
      (getFlag .z p = true ↔ ∀ k < 8, (s.cpu.a.getLsbD k && m.getLsbD k) = false) ∧ getFlag .v p = m.getLsbD 6 ∧
        getFlag .n p = m.getLsbD 7 ∧ keepsFlagsBut [.z, .v, .n] s.cpu.p p

/-- R600 to R606: INC and DEC read their byte once, write it back one higher or lower modulo 256, and set N and Z; INX, DEX, INY and
DEY count their register so; C and V stay. -/
def Obligations.IncrementsAndDecrementsWrap : Prop :=
  ∀ (i : Instr) (s : State),
    let up (b : Byte) : Byte := BitVec.ofNat 8 (b.toNat + 1)
    let down (b : Byte) : Byte := BitVec.ofNat 8 (b.toNat + 255)
    (i.mnemonic = .inc ∨ i.mnemonic = .dec →
      let m := operand i s
      let r := if i.mnemonic = .inc then up m.1 else down m.1
      ∃ (ea : Word) (p : Byte) (cost : Nat), (resolve i.mode s).op = .mem ea ∧
        exec i s = .next { busWrite ea r m.2 with cpu := withStatus s.cpu p cost } ∧ flagsFrom r [.n, .z] s.cpu.p p ∧
        (s.cfg.cycleOverrides = [] → cost = modifyCycles i.mode)) ∧
    works .inx s { s.cpu with x := up s.cpu.x } (flagsFrom (up s.cpu.x) [.n, .z] s.cpu.p) ∧
    works .dex s { s.cpu with x := down s.cpu.x } (flagsFrom (down s.cpu.x) [.n, .z] s.cpu.p) ∧
    works .iny s { s.cpu with y := up s.cpu.y } (flagsFrom (up s.cpu.y) [.n, .z] s.cpu.p) ∧
    works .dey s { s.cpu with y := down s.cpu.y } (flagsFrom (down s.cpu.y) [.n, .z] s.cpu.p)

/-- R650 to R654: the shifts and rotates, on A and on memory: the new byte in numbers, C the bit shifted out, N and Z from the
result, V as before. That the old carry enters a rotate's free bit is the spec's general knowledge. -/
def Obligations.ShiftsMoveOneBitThroughCarry : Prop :=
  ∀ (i : Instr) (s : State),
    let m := operand i s
    let carry := if getFlag .c s.cpu.p then 1 else 0
    ∀ (r : Byte) (out : Bool),
    ((i.mnemonic = .asl ∧ r.toNat = 2 * m.1.toNat % 256 ∧ out = decide (128 ≤ m.1.toNat)) ∨
      (i.mnemonic = .lsr ∧ r.toNat = m.1.toNat / 2 ∧ out = decide (m.1.toNat % 2 = 1)) ∨
      (i.mnemonic = .rol ∧ r.toNat = (2 * m.1.toNat + carry) % 256 ∧ out = decide (128 ≤ m.1.toNat)) ∨
      (i.mnemonic = .ror ∧ r.toNat = m.1.toNat / 2 + 128 * carry ∧ out = decide (m.1.toNat % 2 = 1))) →
    ∃ (p : Byte) (cost : Nat),
      ((i.mode = .acc ∧ exec i s = .next { s with cpu := withStatus { s.cpu with a := r } p cost }) ∨
        ∃ ea, (resolve i.mode s).op = .mem ea ∧ exec i s = .next { busWrite ea r m.2 with cpu := withStatus s.cpu p cost }) ∧
      getFlag .c p = out ∧ flagsFrom r [.c, .n, .z] s.cpu.p p ∧ (s.cfg.cycleOverrides = [] → cost = modifyCycles i.mode)

/-! ## Arithmetic -/

/-- R700 (D15), R705, R706 (D14), R710: ADC and SBC in every mode: the sum in numbers whatever D holds, C the carry out, V when the
operands have one sign and the result the other. -/
def Obligations.AdcAndSbcAddInBinary : Prop :=
  ∀ (i : Instr) (s : State), i.mnemonic = .adc ∨ i.mnemonic = .sbc →
    let m := if i.mnemonic = .adc then (operand i s).1.toNat else 255 - (operand i s).1.toNat
    let sum := s.cpu.a.toNat + m + if getFlag .c s.cpu.p then 1 else 0
    let r : Byte := BitVec.ofNat 8 sum
    reads i s { s.cpu with a := r } fun p =>
      getFlag .c p = decide (255 < sum) ∧
      getFlag .v p = decide ((s.cpu.a.toNat < 128 ↔ m < 128) ∧ ¬(s.cpu.a.toNat < 128 ↔ r.toNat < 128)) ∧
      flagsFrom r [.c, .v, .n, .z] s.cpu.p p

/-- R700 (D15): the adder's V is signed overflow: it is set exactly when the sum of the operands read as signed bytes, and the
carry, is no signed byte; and with V clear the result is that sum. -/
def Obligations.OverflowMeansSignedOverflow : Prop :=
  ∀ (a m : Byte) (c : Bool),
    let sum : Int := a.toInt + m.toInt + if c then 1 else 0
    ((addWithCarry a m c).overflow = true ↔ sum < -128 ∨ 127 < sum) ∧
      ((addWithCarry a m c).overflow = false → (addWithCarry a m c).r.toInt = sum)

/-- R702, R715, R716, R717: CMP, CPX and CPY: C is the unsigned comparison, Z equality, N bit 7 of the difference; no register is
written, V stays. -/
def Obligations.ComparesAreUnsigned : Prop :=
  ∀ (i : Instr) (s : State) (r : Byte),
    (i.mnemonic = .cmp ∧ r = s.cpu.a) ∨ (i.mnemonic = .cpx ∧ r = s.cpu.x) ∨ (i.mnemonic = .cpy ∧ r = s.cpu.y) →
    let m := (operand i s).1
    reads i s s.cpu fun p =>
      getFlag .c p = decide (m.toNat ≤ r.toNat) ∧ getFlag .z p = decide (r = m) ∧
        getFlag .n p = decide (128 ≤ (r.toNat + 256 - m.toNat) % 256) ∧ keepsFlagsBut [.c, .z, .n] s.cpu.p p

/-! ## Control transfer -/

/-- R750 (D9), R751 to R758: each branch tests its flag; taken, PC becomes the signed displacement from the next instruction; the
cost is 2, 3 or 4; no flag is written and nothing else changes. -/
def Obligations.BranchesTestOneFlag : Prop :=
  ∀ (s : State) (d : Byte),
    let target : Word := BitVec.ofInt 16 (s.cpu.pc.toNat + d.toInt)
    let branches (i : Instr) (taken : Bool) : Prop :=
      ∃ cost, exec i s = .next { s with cpu := { s.cpu with pc := if taken then target else s.cpu.pc, budget := cost } } ∧
        (s.cfg.cycleOverrides = [] →
          cost = if taken then (if target.toNat / 256 = s.cpu.pc.toNat / 256 then 3 else 4) else 2)
    branches (.bpl d) (!getFlag .n s.cpu.p) ∧ branches (.bmi d) (getFlag .n s.cpu.p) ∧
    branches (.bvc d) (!getFlag .v s.cpu.p) ∧ branches (.bvs d) (getFlag .v s.cpu.p) ∧
    branches (.bcc d) (!getFlag .c s.cpu.p) ∧ branches (.bcs d) (getFlag .c s.cpu.p) ∧
    branches (.bne d) (!getFlag .z s.cpu.p) ∧ branches (.beq d) (getFlag .z s.cpu.p)

/-- R760, R321 (D10): JMP absolute goes to its address; JMP indirect reads its target through the pointer, low byte first, the high
byte from the next address or, with `JMP_IND_PAGE_WRAP`, from the next address of the pointer's page; nothing but PC and what those
two reads do changes. -/
def Obligations.JumpsGoToTheirTarget : Prop :=
  ∀ (s : State) (a : Word),
    let low := busRead a s
    let next : Word :=
      if s.cfg.jmpIndPageWrap then BitVec.ofNat 16 (a.toNat / 256 * 256 + (a.toNat + 1) % 256) else BitVec.ofNat 16 (a.toNat + 1)
    let high := busRead next low.2
    (∃ cost, exec (.jmpAbs a) s = .next { s with cpu := { s.cpu with pc := a, budget := cost } } ∧
      (s.cfg.cycleOverrides = [] → cost = 3)) ∧
    (∃ cost, exec (.jmpInd a) s =
        .next { high.2 with cpu := { s.cpu with pc := BitVec.ofNat 16 (low.1.toNat + 256 * high.1.toNat), budget := cost } } ∧
      (s.cfg.cycleOverrides = [] → cost = 5))

/-- R765, R766, R500: JSR pushes the address of its own last byte, the high byte first, and goes to its target; RTS pulls an
address, low byte first, and goes one past it (that `+ 1` is the spec's general knowledge). -/
def Obligations.JsrPushesAndRtsPullsAnAddress : Prop :=
  ∀ (s : State) (a : Word),
    let ret := s.cpu.pc - 1
    let lo := s.wram.read (stackCell (s.cpu.s + 1))
    let hi := s.wram.read (stackCell (s.cpu.s + 2))
    (∃ cost, exec (.jsr a) s = .next
        { s with
          wram := (s.wram.write (stackCell s.cpu.s) (BitVec.ofNat 8 (ret.toNat / 256))).write (stackCell (s.cpu.s - 1)) (BitVec.ofNat 8 ret.toNat)
          cpu := { s.cpu with s := s.cpu.s - 2, pc := a, budget := cost } } ∧
      (s.cfg.cycleOverrides = [] → cost = 6)) ∧
    (∃ cost, exec .rts s = .next
        { s with cpu := { s.cpu with s := s.cpu.s + 2, pc := BitVec.ofNat 16 (lo.toNat + 256 * hi.toNat + 1), budget := cost } } ∧
      (s.cfg.cycleOverrides = [] → cost = 6))

/-- R790 (D6): BRK pushes the address two past itself, then `P` with bits 4 and 5 set, sets I and goes through `$FFFE`. -/
def Obligations.BrkEntersThroughTheIrqVector : Prop :=
  ∀ s : State,
    let ret := s.cpu.pc + 1
    ∃ p q cost, exec .brk s = .next
        { s with
          wram := pushed3 s.wram s.cpu.s (BitVec.ofNat 8 (ret.toNat / 256)) (BitVec.ofNat 8 ret.toNat) q
          cpu := { s.cpu with s := s.cpu.s - 3, p := p, pc := vectorAt 0xFFFE s, budget := cost } } ∧
      (∀ f, getFlag f q = (getFlag f s.cpu.p || f == .b || f == .u)) ∧
      getFlag .i p = true ∧ keepsFlagsBut [.i] s.cpu.p p ∧ (s.cfg.cycleOverrides = [] → cost = 7)

/-- R791 (D7): RTI pulls the status, taking its six flags, then PC as it was pushed. -/
def Obligations.RtiRestoresStatusThenPc : Prop :=
  ∀ s : State,
    let b := s.wram.read (stackCell (s.cpu.s + 1))
    let lo := s.wram.read (stackCell (s.cpu.s + 2))
    let hi := s.wram.read (stackCell (s.cpu.s + 3))
    ∃ p cost, exec .rti s = .next
        { s with cpu := { s.cpu with s := s.cpu.s + 3, p := p, pc := BitVec.ofNat 16 (lo.toNat + 256 * hi.toNat), budget := cost } } ∧
      (∀ f, getFlag f p = (f == .u || (f != .b && getFlag f b))) ∧ (s.cfg.cycleOverrides = [] → cost = 6)

/-! ## Flags, NOP, ISC -/

/-- R800 to R807, R810: each flag instruction writes its one flag; NOP changes nothing; each takes two cycles. R110: the bit of `P`
each flag is. -/
def Obligations.FlagInstructionsWriteOneFlag : Prop :=
  ∀ s : State,
    let writes (i : Instr) (f : Flag) (on : Bool) : Prop :=
      works i s s.cpu fun p => getFlag f p = on ∧ keepsFlagsBut [f] s.cpu.p p
    writes .clc .c false ∧ writes .sec .c true ∧ writes .cli .i false ∧ writes .sei .i true ∧ writes .clv .v false ∧
    writes .cld .d false ∧ writes .sed .d true ∧ works .nop s s.cpu (fun p => p = s.cpu.p) ∧
    ∀ p : Byte,
      getFlag .c p = p.getLsbD 0 ∧ getFlag .z p = p.getLsbD 1 ∧ getFlag .i p = p.getLsbD 2 ∧ getFlag .d p = p.getLsbD 3 ∧
      getFlag .b p = p.getLsbD 4 ∧ getFlag .u p = p.getLsbD 5 ∧ getFlag .v p = p.getLsbD 6 ∧ getFlag .n p = p.getLsbD 7

/-- R820 (D16), R700: ISC in every mode: the byte one higher is written back, and then subtracted from A with the old carry. -/
def Obligations.IscIncrementsThenSubtracts : Prop :=
  ∀ (i : Instr) (s : State), i.mnemonic = .isc →
    let m := operand i s
    let v : Byte := BitVec.ofNat 8 (m.1.toNat + 1)
    let sum := s.cpu.a.toNat + (255 - v.toNat) + if getFlag .c s.cpu.p then 1 else 0
    let r : Byte := BitVec.ofNat 8 sum
    ∃ (ea : Word) (p : Byte) (cost : Nat), (resolve i.mode s).op = .mem ea ∧
      exec i s = .next { busWrite ea v m.2 with cpu := withStatus { s.cpu with a := r } p cost } ∧
      getFlag .c p = decide (255 < sum) ∧
      getFlag .v p = decide ((s.cpu.a.toNat < 128 ↔ 255 - v.toNat < 128) ∧ ¬(s.cpu.a.toNat < 128 ↔ r.toNat < 128)) ∧
      flagsFrom r [.c, .v, .n, .z] s.cpu.p p ∧ (s.cfg.cycleOverrides = [] → cost = modifyCycles i.mode)

/-! ## Frames over memory -/

/-- R400, R404 to R406, R600 to R602, R650 to R654, R820: a form that stores, of STA STX STY INC DEC ASL LSR ROL ROR ISC, changes no
byte of work RAM or ROM but the one at its effective address; the accumulator forms change none. -/
def Obligations.StoringFormsKeepEveryOtherByte : Prop :=
  ∀ (i : Instr) (s t : State), s.wram.wf = true →
    i.mnemonic ∈ ([.sta, .stx, .sty, .inc, .dec, .asl, .lsr, .rol, .ror, .isc] : List Mnemonic) → exec i s = .next t →
    (∀ ea b, (resolve i.mode s).op = .mem ea → ¬ (deviceOf s.cfg ea = .wram ∧ sameCell s.cfg ea b) → peek b t = peek b s) ∧
    (i.mode = .acc → ∀ b, peek b t = peek b s)

/-- R113, R400, R450, R550, R600, R702, R750, R800: the instructions that store nothing and push nothing change no byte of work RAM
or ROM, and beside the processor only what a read of the PPU window, the controller port or an unmapped address can: `vblank`, `w`,
`read_buf` and `v`, the port, the host's answers and calls; `reset_pending` stays. -/
def Obligations.NonStoringFormsKeepMemory : Prop :=
  ∀ (i : Instr) (s t : State),
    i.mnemonic ∉ ([.sta, .stx, .sty, .inc, .dec, .asl, .lsr, .rol, .ror, .isc, .pha, .php, .jsr, .brk] : List Mnemonic) →
    exec i s = .next t →
    (∀ b, peek b t = peek b s) ∧ t.cpu.resetPending = s.cpu.resetPending ∧
      t = { s with
        cpu := t.cpu
        pad := t.pad
        ppu := { s.ppu with vblank := t.ppu.vblank, w := t.ppu.w, readBuf := t.ppu.readBuf, v := t.ppu.v }
        host := { s.host with buttons := t.host.buttons, polls := t.host.polls, calls := t.host.calls } }

/-! ## Interrupts -/

/-- R1201, R1202, R1203 (D1): at a boundary NMI is taken first and whatever I holds, then reset whatever I holds, then IRQ with I
clear; with none of them the instruction at PC runs. -/
def Obligations.BoundaryTakesNmiThenResetThenIrq : Prop :=
  ∀ s : State,
    (s.nmiLine = true → boundary s = .next (service .nmi s)) ∧
    (s.nmiLine = false → s.cpu.resetPending = true → boundary s = .next (service .reset s)) ∧
    (s.nmiLine = false → s.cpu.resetPending = false → s.host.irqLine = true → getFlag .i s.cpu.p = false →
      boundary s = .next (service .irq s)) ∧
    (s.nmiLine = false → s.cpu.resetPending = false → (s.host.irqLine = false ∨ getFlag .i s.cpu.p = true) →
      boundary s = exec (fetchInstr s).1 (fetchInstr s).2)

/-- R1210 (D3 for the cost), R1211, R1213: a service pushes PC, high byte first, then `P` with bit 4 clear and bit 5 set, at `S`, `S
- 1`, `S - 2`; sets I; goes through its vector; clears its request and no other; and changes nothing else. -/
def Obligations.ServicePushesPcAndStatus : Prop :=
  ∀ (k : IntKind) (s : State), ∃ p q,
    service k s =
      { s with
        nmiLine := if k = .nmi then false else s.nmiLine
        wram := pushed3 s.wram s.cpu.s (BitVec.ofNat 8 (s.cpu.pc.toNat / 256)) (BitVec.ofNat 8 s.cpu.pc.toNat) q
        cpu :=
          { s.cpu with
            s := s.cpu.s - 3, p := p, budget := s.cfg.interruptCost
            pc := vectorAt (match k with | .nmi => 0xFFFA | .reset => 0xFFFC | .irq => 0xFFFE) s
            resetPending := if k = .reset then false else s.cpu.resetPending } } ∧
    (∀ f, getFlag f q = (f == .u || (f != .b && getFlag f s.cpu.p))) ∧
    getFlag .i p = true ∧ keepsFlagsBut [.i] s.cpu.p p

/-- R765, R766, R1220: a return undoes an entry that left S and the pushed bytes as it found them: RTS goes to the byte after the
JSR; RTI brings a live `P` back whole, and PC to the interrupted instruction, or two past BRK. -/
def Obligations.ReturnsUndoEntries : Prop :=
  ∀ (s u v w : State), s.wram.wf = true → v.cpu.s = u.cpu.s →
    (∀ d : Byte, d = 0 ∨ d = 1 ∨ d = 2 → v.wram.read (stackCell (s.cpu.s - d)) = u.wram.read (stackCell (s.cpu.s - d))) →
    (∀ a, exec (.jsr a) s = .next u → exec .rts v = .next w → w.cpu.pc = s.cpu.pc ∧ w.cpu.s = s.cpu.s) ∧
    (getFlag .b s.cpu.p = false → getFlag .u s.cpu.p = true → exec .rti v = .next w →
      (∀ k, u = service k s → w.cpu.p = s.cpu.p ∧ w.cpu.s = s.cpu.s ∧ w.cpu.pc = s.cpu.pc) ∧
      (exec .brk s = .next u → w.cpu.p = s.cpu.p ∧ w.cpu.s = s.cpu.s ∧ w.cpu.pc = s.cpu.pc + 1))

/-! ## PPU registers -/

/-- R1020, R1021, R142: reading `$2002` answers `vblank` in bit 7, `s0hit` in bit 6 and 0 below, clears `vblank` and `w` and nothing
else, so the next read has bit 7 clear; writing it changes nothing of the machine. -/
def Obligations.StatusReadClearsVblankAndToggle : Prop :=
  ∀ (mir : Mirroring) (q : Ppu) (b : Byte),
    (ppuRegRead mir 2 q).2 = { q with vblank := false, w := false } ∧
    (∀ k, (ppuRegRead mir 2 q).1.getLsbD k = ((k == 7 && q.vblank) || (k == 6 && q.s0hit))) ∧
    (ppuRegRead mir 2 (ppuRegRead mir 2 q).2).1.getLsbD 7 = false ∧ ppuRegWrite mir 2 b q = q ∧
    ∀ s : State, applyRegWrite 2 b s = s

/-- R1070 (D24, D26), R1071, R1075: `$2007` answers the buffer below `$3F00` and refills it, and the palette byte at once; writes go
to the PPU bus; each access moves `v` by 1 or 32 modulo 2^15. R1003: a `$2007` write that takes effect on the machine is that write,
and nothing else. -/
def Obligations.DataPortBuffersBelowThePalette : Prop :=
  ∀ (mir : Mirroring) (q : Ppu) (b : Byte),
    let a : Word := BitVec.ofNat 16 (q.v.toNat % 0x4000)
    let next : VramReg := BitVec.ofNat 15 (q.v.toNat + if q.ctrl.getLsbD 2 then 32 else 1)
    (a.toNat < 0x3F00 → ppuRegRead mir 7 q = (q.readBuf, { q with readBuf := ppuRead mir a q, v := next })) ∧
    (0x3F00 ≤ a.toNat → ppuRegRead mir 7 q = (ppuRead mir a q, { q with v := next })) ∧
    ppuRegWrite mir 7 b q = { ppuWrite mir a b q with v := next } ∧
    ∀ s : State, applyRegWrite 7 b s = { s with ppu := ppuRegWrite s.cfg.mirroring 7 b s.ppu }

/-- R1050, R1060, R144, R146: what each write of `$2005` and `$2006` puts into the fields of `t`, by `w`; each write flips `w`; only
the second `$2006` write moves `v`; a write that takes effect on the machine is that write, and nothing else (R1003). -/
def Obligations.ScrollAndAddressWritesFillT : Prop :=
  ∀ (mir : Mirroring) (q : Ppu) (b : Byte),
    (q.w = false →
      (∃ t : VramReg, ppuRegWrite mir 5 b q = { q with fineX := BitVec.ofNat 3 b.toNat, t := t, w := true } ∧
        (coarseX t).toNat = b.toNat / 8 ∧ coarseY t = coarseY q.t ∧ ntSelect t = ntSelect q.t ∧ fineY t = fineY q.t) ∧
      ppuRegWrite mir 6 b q = { q with t := BitVec.ofNat 15 (b.toNat % 64 * 256 + q.t.toNat % 256), w := true }) ∧
    (q.w = true →
      (∃ t : VramReg, ppuRegWrite mir 5 b q = { q with t := t, w := false } ∧
        coarseX t = coarseX q.t ∧ (coarseY t).toNat = b.toNat / 8 ∧ ntSelect t = ntSelect q.t ∧ (fineY t).toNat = b.toNat % 8) ∧
      let t : VramReg := BitVec.ofNat 15 (q.t.toNat / 256 * 256 + b.toNat)
      ppuRegWrite mir 6 b q = { q with t := t, v := t, w := false }) ∧
    ∀ s : State,
      applyRegWrite 5 b s = { s with ppu := ppuRegWrite s.cfg.mirroring 5 b s.ppu } ∧
      applyRegWrite 6 b s = { s with ppu := ppuRegWrite s.cfg.mirroring 6 b s.ppu }

/-- R1010, R1011 (D48, D4): a `$2000` write stores `ctrl`, puts its two low bits into `t`'s nametable field, leaves `v`, and raises
NMI exactly when bit 7 goes from 0 to 1 while `vblank` is set; it never lowers it. -/
def Obligations.ControlWriteCanRaiseNmi : Prop :=
  ∀ (s : State) (b : Byte), ∃ t : VramReg,
    applyRegWrite 0 b s =
      { s with
        ppu := { s.ppu with ctrl := b, t := t }
        nmiLine := s.nmiLine || (!s.ppu.ctrl.getLsbD 7 && b.getLsbD 7 && s.ppu.vblank) } ∧
    (ntSelect t).toNat = b.toNat % 4 ∧ coarseX t = coarseX s.ppu.t ∧ coarseY t = coarseY s.ppu.t ∧ fineY t = fineY s.ppu.t

/-- R1015, R1030, R1040: `$2001` and `$2003` store their byte; `$2004` writes primary OAM at `oam_addr` and counts it modulo 256;
none raises NMI. -/
def Obligations.MaskAndOamWritesStoreTheirByte : Prop :=
  ∀ (s : State) (b : Byte),
    applyRegWrite 1 b s = { s with ppu := { s.ppu with mask := b } } ∧
    applyRegWrite 3 b s = { s with ppu := { s.ppu with oamAddr := b } } ∧
    applyRegWrite 4 b s =
      { s with
        ppu :=
          { s.ppu with
            oam := s.ppu.oam.write s.ppu.oamAddr.toNat b
            oamAddr := BitVec.ofNat 8 (s.ppu.oamAddr.toNat + 1) } }

/-- R1003, R1120 (D20): a processor write to a window address is applied at once when its register is not in `DELAYED_REGS`, and
else only queued, for the dot step `WRITE_DELAY_DOTS` on. R1101, R1102, R1100: a dot step first applies the queued writes due at its
timestamp, in queue order, and leaves the others queued, then does the PPU's dot, then counts itself; a tick has three. -/
def Obligations.DelayedRegistersAreQueued : Prop :=
  (∀ (s : State) (a : Word) (b : Byte), 0x2000 ≤ a.toNat → a.toNat < 0x4000 →
    let r : RegIndex := BitVec.ofNat 3 a.toNat
    (r ∉ s.cfg.delayedRegs → busWrite a b s = applyRegWrite r b s) ∧
    (r ∈ s.cfg.delayedRegs →
      busWrite a b s = { s with wq := s.wq ++ [⟨s.dotsTotal + s.cfg.writeDelayDots, r, b⟩] })) ∧
  ∀ s : State,
    dots s = dotStep (dotStep (dotStep s)) ∧ dotStep s = { ppuDot (applyDue s) with dotsTotal := s.dotsTotal + 1 } ∧
    (applyDue s).wq = s.wq.filter (fun e => decide (e.target ≠ s.dotsTotal)) ∧
    ((∀ e ∈ s.wq, e.target ≠ s.dotsTotal) → applyDue s = s) ∧
    ∀ (before after : List QueuedWrite) (e : QueuedWrite),
      s.wq = before ++ e :: after → (∀ o ∈ before, o.target ≠ s.dotsTotal) → e.target = s.dotsTotal →
      applyDue s = applyDue (applyRegWrite e.reg e.byte { s with wq := before ++ after })

/-! ## Rendering -/

/-- R900, R901 (D31): a dot moves the position on, through the dots of a line and the lines of a frame; the last dot of an odd
frame's pre-render line is skipped, with rendering on or when the parameter does not ask for it. -/
def Obligations.PositionAdvancesDotByDot : Prop :=
  (∀ s : State,
    let t := advance s.cfg s.ppu
    (ppuDot s).ppu.scanline = t.scanline ∧ (ppuDot s).ppu.dot = t.dot ∧ (ppuDot s).ppu.frame = t.frame) ∧
  ∀ (cfg : Config) (q : Ppu), q.scanline ≤ 261 → q.dot ≤ 340 →
    let skip := q.scanline = 261 ∧ q.dot = 339 ∧ q.frame % 2 = 1 ∧
      (cfg.oddSkipNeedsRendering = false ∨ q.mask.getLsbD 3 = true ∨ q.mask.getLsbD 4 = true)
    let n := 341 * q.scanline + q.dot
    let t := advance cfg q
    t = { q with scanline := t.scanline, dot := t.dot, frame := t.frame } ∧ t.scanline ≤ 261 ∧ t.dot ≤ 340 ∧
    (skip → t.scanline = 0 ∧ t.dot = 0 ∧ t.frame = q.frame + 1) ∧
    (¬skip → n + 1 < 262 * 341 → 341 * t.scanline + t.dot = n + 1 ∧ t.frame = q.frame) ∧
    (¬skip → n + 1 = 262 * 341 → t.scanline = 0 ∧ t.dot = 0 ∧ t.frame = q.frame + 1)

/-- R960, R142: the vertical-blank flag and NMI at dot (241, 1), the clearing of both flags at (261, 1), and at every other dot
neither flag's event. -/
def Obligations.VerticalBlankStartsAndEnds : Prop :=
  ∀ s : State,
    (s.ppu.scanline = 241 → s.ppu.dot = 1 →
      (ppuDot s).ppu.vblank = true ∧ (ppuDot s).nmiLine = (s.nmiLine || s.ppu.ctrl.getLsbD 7) ∧ (ppuDot s).ppu.s0hit = s.ppu.s0hit) ∧
    (s.ppu.scanline = 261 → s.ppu.dot = 1 →
      (ppuDot s).ppu.vblank = false ∧ (ppuDot s).ppu.s0hit = false ∧ (ppuDot s).nmiLine = s.nmiLine) ∧
    (¬(s.ppu.dot = 1 ∧ (s.ppu.scanline = 241 ∨ s.ppu.scanline = 261)) →
      (ppuDot s).ppu.vblank = s.ppu.vblank ∧ (ppuDot s).nmiLine = s.nmiLine ∧
        (s.ppu.s0hit = true → (ppuDot s).ppu.s0hit = true))

/-- R913, R914, R915, R916, R144: the two increments of `v` and its two reloads from `t`, field by field, and at which dots `v`
moves (R910, D29): with background on, on the visible lines and line 261, the horizontal increment at every eighth dot of 1..256 and
321..336, the vertical one at dot 256 after it, the horizontal reload at dot 257, the vertical reload at dots 280..304 of line 261,
and at no other dot. The masks of the reloads are the spec's general knowledge. -/
def Obligations.ScrollIncrementsWrapFieldByField : Prop :=
  (∀ v : VramReg,
    ((coarseX (incX v)).toNat = ((coarseX v).toNat + 1) % 32 ∧
      (ntSelect (incX v) = if (coarseX v).toNat = 31 then ntSelect v ^^^ 1 else ntSelect v) ∧
      coarseY (incX v) = coarseY v ∧ fineY (incX v) = fineY v) ∧
    ((fineY (incY v)).toNat = ((fineY v).toNat + 1) % 8 ∧ coarseX (incY v) = coarseX v ∧
      ((coarseY (incY v)).toNat =
        if (fineY v).toNat < 7 then (coarseY v).toNat
        else if (coarseY v).toNat = 29 ∨ (coarseY v).toNat = 31 then 0 else (coarseY v).toNat + 1) ∧
      (ntSelect (incY v) =
        if (fineY v).toNat = 7 ∧ (coarseY v).toNat = 29 then ntSelect v ^^^ 2 else ntSelect v))) ∧
  (∀ v t : VramReg,
    (coarseX (reloadX v t) = coarseX t ∧ coarseY (reloadX v t) = coarseY v ∧ fineY (reloadX v t) = fineY v ∧
      (ntSelect (reloadX v t)).getLsbD 0 = (ntSelect t).getLsbD 0 ∧ (ntSelect (reloadX v t)).getLsbD 1 = (ntSelect v).getLsbD 1) ∧
    (coarseX (reloadY v t) = coarseX v ∧ coarseY (reloadY v t) = coarseY t ∧ fineY (reloadY v t) = fineY t ∧
      (ntSelect (reloadY v t)).getLsbD 0 = (ntSelect v).getLsbD 0 ∧ (ntSelect (reloadY v t)).getLsbD 1 = (ntSelect t).getLsbD 1)) ∧
  ∀ s : State,
    let q := s.ppu
    let after := (ppuDot s).ppu.v
    let on := q.mask.getLsbD 3 = true ∧ (q.scanline ≤ 239 ∨ q.scanline = 261)
    let eighth := q.dot % 8 = 0 ∧ ((1 ≤ q.dot ∧ q.dot ≤ 256) ∨ (321 ≤ q.dot ∧ q.dot ≤ 336))
    let vertical := q.scanline = 261 ∧ 280 ≤ q.dot ∧ q.dot ≤ 304
    (on → eighth → after = if q.dot = 256 then incY (incX q.v) else incX q.v) ∧
    (on → q.dot = 257 → after = reloadX q.v q.t) ∧
    (on → vertical → after = reloadY q.v q.t) ∧
    (¬(on ∧ (eighth ∨ q.dot = 257 ∨ vertical)) → after = q.v)

/-- R905 (D30): each gate freezes its own pipeline, whatever the position: with background off a dot leaves the background shift
registers, the fetch latches and `v`; with sprites off it leaves the slots, secondary OAM, its count and the sprite-0 latches; with
either off it sets no sprite-0 hit; with both off it changes nothing of the PPU but its position and the flags of vertical blank.
That the sprite fetch's held bytes, too, are state that stays with sprites off is the model's choice (log 10, DEDUCED). Whatever the
gates, a dot changes no register a program writes, no memory a program reaches, and beside the PPU only the NMI line and the calls
made. -/
def Obligations.RenderingOffFreezesThePipelines : Prop :=
  ∀ s : State,
    let q := s.ppu
    let t := (ppuDot s).ppu
    let bgOff := q.mask.getLsbD 3 = false
    let sprOff := q.mask.getLsbD 4 = false
    (bgOff → t.v = q.v ∧ t.bgLo = q.bgLo ∧ t.bgHi = q.bgHi ∧ t.bgAt0 = q.bgAt0 ∧ t.bgAt1 = q.bgAt1 ∧ t.ntByte = q.ntByte ∧
      t.atBits = q.atBits ∧ t.ptLo = q.ptLo ∧ t.ptHi = q.ptHi) ∧
    (sprOff → t.spr = q.spr ∧ t.fetch = q.fetch ∧ t.oam2 = q.oam2 ∧ t.oam2Count = q.oam2Count ∧ t.s0Next = q.s0Next ∧
      t.s0Cur = q.s0Cur) ∧
    (bgOff ∨ sprOff → t.s0hit = true → q.s0hit = true) ∧
    (bgOff → sprOff → ∃ sl d f vb hit, t = { q with scanline := sl, dot := d, frame := f, vblank := vb, s0hit := hit }) ∧
    (t.ctrl = q.ctrl ∧ t.mask = q.mask ∧ t.oamAddr = q.oamAddr ∧ t.t = q.t ∧ t.fineX = q.fineX ∧ t.w = q.w ∧
      t.readBuf = q.readBuf ∧ t.chr = q.chr ∧ t.ciram = q.ciram ∧ t.pal = q.pal ∧ t.oam = q.oam) ∧
    ∃ n calls, ppuDot s = { s with ppu := t, nmiLine := n, host := { s.host with calls := calls } }

/-- R950 (D34, D35, D52): a dot that sets the sprite-0 flag is a visible one with background and sprites on, with sprite 0 in slot
0, an opaque background pixel and an opaque sprite pixel of slot 0; and such a dot sets it. -/
def Obligations.SpriteZeroHitNeedsBothPixels : Prop :=
  ∀ s : State, s.ppu.s0hit = false →
    ((ppuDot s).ppu.s0hit = true ↔
      1 ≤ s.ppu.dot ∧ s.ppu.dot ≤ 256 ∧ s.ppu.scanline ≤ 239 ∧ s.ppu.mask.getLsbD 3 = true ∧ s.ppu.mask.getLsbD 4 = true ∧
        s.ppu.s0Cur = true ∧ (bgPixel s.ppu).toNat % 4 ≠ 0 ∧
        ∃ sl rest, s.ppu.spr = sl :: rest ∧ sl.active = true ∧ (128 ≤ sl.lo.toNat ∨ 128 ≤ sl.hi.toNat))

/-- R946, R945, R940, R935, R920, R1131 (D28, D37): while the sink is ready a visible dot makes exactly one `emit_pixel`, of the
palette byte (aliased, R242) of the index R940 composes from the background pixel and the first active opaque slot, dot (240, 0)
makes one `present_frame`, and no other dot makes a call; while it is not ready no dot makes one. The PPU is as the delayed writes
due at this dot leave it; with none due, as it stands. The index of a sprite pixel and the meaning of its attribute bit 5 are the
spec's general knowledge. -/
def Obligations.EachVisibleDotEmitsOnePixel : Prop :=
  ∀ s : State,
    let q := (applyDue s).ppu
    let made := (dotStep s).host.calls
    let visible := 1 ≤ q.dot ∧ q.dot ≤ 256 ∧ q.scanline ≤ 239
    ((∀ e ∈ s.wq, e.target ≠ s.dotsTotal) → q = s.ppu) ∧
    (s.host.sinkReady = true →
      (visible → ∃ idx : Nat,
        made = s.host.calls ++ [.emitPixel (q.pal.read (if idx % 4 = 0 then idx % 16 else idx))] ∧ composedIs q idx) ∧
      (q.scanline = 240 → q.dot = 0 → made = s.host.calls ++ [.presentFrame]) ∧
      (¬visible → ¬(q.scanline = 240 ∧ q.dot = 0) → made = s.host.calls)) ∧
    (s.host.sinkReady = false → made = s.host.calls)

/-- R910, R911, R912, R905 (D29, D51): with background on, on the rendering lines, the background pipeline works at dots 1..256 and
321..336: the four latches are read at the dots 1, 3, 5 and 7 of every eight, from the nametable, attribute and pattern addresses
given by `v` and `ctrl` bit 4, and at no other dot; the shift registers move one bit at each of these dots, load their low bytes
from the latches at every eighth, and stay at all others. R920: pixel `k` of a tile just reloaded is what fine-x `x` shows after `8
+ k - x` shifts: bits `7 - k` of the two pattern bytes under the two attribute bits. The addresses, the sub-offsets 1, 3, 5, 7 and
that the leftmost pixel is bit 7 are the spec's general knowledge. -/
def Obligations.ReloadedTileShiftsOutLeftToRight : Prop :=
  (∀ s : State,
    let q := s.ppu
    let t := (ppuDot s).ppu
    let read (n : Nat) : Byte := ppuRead s.cfg.mirroring (BitVec.ofNat 16 n) q
    let table := 0x400 * (ntSelect q.v).toNat
    let cx := (coarseX q.v).toNat
    let cy := (coarseY q.v).toNat
    let quadrant := 2 * (cy / 2 % 2) + cx / 2 % 2
    let pattern := (if q.ctrl.getLsbD 4 then 0x1000 else 0) + 16 * q.ntByte.toNat + (fineY q.v).toNat
    let moved (r : BitVec 16) (b : Byte) : BitVec 16 :=
      if bgWorksAt 0 q then BitVec.ofNat 16 (2 * r.toNat / 0x100 * 0x100 + b.toNat)
      else if bgWorks q then BitVec.ofNat 16 (2 * r.toNat)
      else r
    t.ntByte = (if bgWorksAt 1 q then read (0x2000 + table + 32 * cy + cx) else q.ntByte) ∧
    t.atBits =
      (if bgWorksAt 3 q then BitVec.ofNat 2 ((read (0x23C0 + table + 8 * (cy / 4) + cx / 4)).toNat / 4 ^ quadrant) else q.atBits) ∧
    t.ptLo = (if bgWorksAt 5 q then read pattern else q.ptLo) ∧
    t.ptHi = (if bgWorksAt 7 q then read (pattern + 8) else q.ptHi) ∧
    t.bgLo = moved q.bgLo q.ptLo ∧ t.bgHi = moved q.bgHi q.ptHi ∧
    t.bgAt0 = moved q.bgAt0 (if q.atBits.getLsbD 0 then 0xFF else 0x00) ∧
    t.bgAt1 = moved q.bgAt1 (if q.atBits.getLsbD 1 then 0xFF else 0x00)) ∧
  ∀ (q : Ppu) (k n : Nat), q.mask.getLsbD 3 = true → k < 8 → n + q.fineX.toNat = 8 + k →
    bgPixel (Nat.repeat bgShift n (bgReload q)) =
      BitVec.ofNat 4 (4 * q.atBits.toNat + 2 * (q.ptHi.getLsbD (7 - k)).toNat + (q.ptLo.getLsbD (7 - k)).toNat)

/-- R932, R905 (D33): with sprites on, on the rendering lines, slot `i` takes its four bytes from secondary OAM at dot `257 + 8i`,
its two planes at dots `261 + 8i` and `263 + 8i` from the pattern half of `ctrl` bit 3, the tile and the row, flipped when `at[7]`
is 1 (0 for an empty slot), and is armed at dot `264 + 8i` with the planes, their bits reversed when `at[6]` is 1. R933: at dots
1..256 of a visible line every slot counts down or shifts; at all other dots slots and held bytes stay. A slot armed with X = `x` is
idle for `x` dots, then shows bits 7 down to 0 of its two planes, then is transparent. Three points are the model's choice: that the
held bytes are state from dot to dot, kept in the flipped form (log 10, DEDUCED), that the row is computed on integers and the
address then taken modulo 2^14 (log 11, DEDUCED), and that the high plane's address is computed anew at its own dot (log 22, DESIGN
CHOICE). The sub-offsets are the spec's general knowledge. -/
def Obligations.ArmedSlotShowsEightPixelsFromItsColumn : Prop :=
  (∀ s : State,
    let q := s.ppu
    let t := (ppuDot s).ppu
    let f := q.fetch
    let row : Int := (q.scanline : Int) - (f.sy.toNat : Int)
    let shown : Int := if f.attr.getLsbD 7 then 7 - row else row
    let low : Int := (if q.ctrl.getLsbD 3 then 0x1000 else 0) + 16 * (f.tile.toNat : Int) + shown
    let plane (i : Nat) (a : Int) : Byte := if i < q.oam2Count then ppuRead s.cfg.mirroring (BitVec.ofInt 16 a) q else 0
    let turned (b r : Byte) : Prop := ∀ k < 8, r.getLsbD k = b.getLsbD (if f.attr.getLsbD 6 then 7 - k else k)
    (∀ i < 8, spriteWorks q →
      (q.dot = 257 + 8 * i →
        let entry (j : Nat) : Byte := q.oam2.read (4 * i + j)
        t.fetch = { f with sy := entry 0, tile := entry 1, attr := entry 2, sx := entry 3 } ∧
          t.spr = q.spr.modify i fun sl => { sl with attr := entry 2 }) ∧
      (q.dot = 261 + 8 * i → t.fetch = { f with lo := plane i low } ∧ t.spr = q.spr) ∧
      (q.dot = 263 + 8 * i → t.fetch = { f with hi := plane i (low + 8) } ∧ t.spr = q.spr) ∧
      (q.dot = 264 + 8 * i →
        ∃ lo hi, turned f.lo lo ∧ turned f.hi hi ∧ t.fetch = { f with lo := lo, hi := hi } ∧
          t.spr = q.spr.modify i fun sl => { sl with lo := lo, hi := hi, xcnt := f.sx, active := decide (f.sx.toNat = 0) })) ∧
    (spriteWorks q → q.scanline ≤ 239 → 1 ≤ q.dot → q.dot ≤ 256 →
      t.fetch = f ∧
      t.spr = q.spr.map fun sl =>
        if sl.active then { sl with lo := sl.lo <<< 1, hi := sl.hi <<< 1 }
        else { sl with xcnt := sl.xcnt - 1, active := decide (sl.xcnt.toNat = 1) }) ∧
    ((∀ i < 8, q.dot ≠ 257 + 8 * i ∧ q.dot ≠ 261 + 8 * i ∧ q.dot ≠ 263 + 8 * i ∧ q.dot ≠ 264 + 8 * i) ∨ ¬spriteWorks q →
      t.fetch = f ∧ (¬(spriteWorks q ∧ q.scanline ≤ 239 ∧ 1 ≤ q.dot ∧ q.dot ≤ 256) → t.spr = q.spr))) ∧
  ∀ (sl : Slot) (n : Nat), sl.active = (sl.xcnt == 0) →
    let t := Nat.repeat slotTick n sl
    let x := sl.xcnt.toNat
    (n < x → t.active = false) ∧
    (∀ k, k < 8 → n = x + k →
      t.active = true ∧ slotPattern t = BitVec.ofNat 2 (2 * (sl.hi.getLsbD (7 - k)).toNat + (sl.lo.getLsbD (7 - k)).toNat)) ∧
    (x + 8 ≤ n → slotPattern t = 0)

/-- R931, R930, R905 (D32): with sprites on, dot 1 of a rendering line fills secondary OAM with `$FF` and clears its count and
`s0_next`, dot `65 + 3n` of a visible line evaluates sprite `n`, and no other dot changes the three. R934 (D35): dot 257 of a
rendering line copies `s0_next` to `s0_cur`, and no other dot writes it. Evaluating sprites 0 to 63 from a cleared secondary OAM
keeps the first eight entries in range, in OAM order, byte for byte, with `$FF` after them, and latches whether entry 0 was in
range. -/
def Obligations.EvaluationKeepsTheFirstEightInRange : Prop :=
  (∀ s : State,
    let q := s.ppu
    let t := (ppuDot s).ppu
    let clears := spriteWorks q ∧ q.dot = 1
    let evaluates (n : Nat) : Prop := spriteWorks q ∧ q.scanline ≤ 239 ∧ n < 64 ∧ q.dot = 65 + 3 * n
    (clears → (∀ k < 32, t.oam2.read k = 0xFF) ∧ t.oam2 = (clearOam2 q).oam2 ∧ t.oam2Count = 0 ∧ t.s0Next = false) ∧
    (∀ n, evaluates n →
      let y := (q.oam.read (4 * n)).toNat
      let entry := (List.range 4).map fun j => q.oam.read (4 * n + j)
      if y ≤ q.scanline ∧ q.scanline < y + 8 ∧ q.oam2Count < 8 then
        t.oam2 = q.oam2.writeBytes (4 * q.oam2Count) entry ∧ t.oam2Count = q.oam2Count + 1 ∧
          t.s0Next = (q.s0Next || decide (n = 0))
      else t.oam2 = q.oam2 ∧ t.oam2Count = q.oam2Count ∧ t.s0Next = q.s0Next) ∧
    (∀ n, evaluates n →
      let e := evalSprite n q
      t.oam2 = e.oam2 ∧ t.oam2Count = e.oam2Count ∧ t.s0Next = e.s0Next) ∧
    (¬clears → (∀ n, ¬evaluates n) → t.oam2 = q.oam2 ∧ t.oam2Count = q.oam2Count ∧ t.s0Next = q.s0Next) ∧
    (spriteWorks q → q.dot = 257 → t.s0Cur = q.s0Next) ∧
    (¬(spriteWorks q ∧ q.dot = 257) → t.s0Cur = q.s0Cur)) ∧
  ∀ q : Ppu, q.oam.wf = true →
    let e := (List.range 64).foldl (fun p n => evalSprite n p) (clearOam2 q)
    let hit (n : Nat) : Bool := decide ((q.oam.read (4 * n)).toNat ≤ q.scanline) && decide (q.scanline < (q.oam.read (4 * n)).toNat + 8)
    let kept := ((List.range 64).filter hit).take 8
    e.oam2Count = kept.length ∧ e.s0Next = hit 0 ∧ e.oam = q.oam ∧
      (∀ j k, j < kept.length → k < 4 → e.oam2.read (4 * j + k) = q.oam.read (4 * kept.getD j 0 + k)) ∧
      ∀ k, 4 * kept.length ≤ k → k < 32 → e.oam2.read k = 0xFF

/-! ## The scheduler -/

/-- R1100, R1101 (D45), R1105 (D47), R1110: a step that ran did three dot steps; between boundaries its tick counts the budget and
changes nothing else, at one it does the boundary of R1201 and counts the tick, unless that faulted; a halted step changes nothing
of the CORE, but for a reset request the host makes with it, which is recorded; a machine already faulted stops. R1130, R1310 (D43):
every step, running or halted, begins by taking what the host set before it: the levels `run`, `irq_line` and `sink_ready`, and a
reset request, which stays pending beside one already recorded; with nothing listed the levels stay as they are. Six points are the
model's choice: that what the host sets is a list in the state (log 5, DESIGN CHOICE), that a step begins by letting the calls of
the step before go (log 7, DESIGN CHOICE), that a halted step is a next state (log 9, DESIGN CHOICE), that it records the request
(log 16, DEDUCED), that a cost of 0, which only a parameter can give, takes one tick (log 21, DESIGN CHOICE), and that the step at
which the machine faults is a next state too, only the later ones the fault (log 8, DESIGN CHOICE). -/
def Obligations.MachineStepRunsThreeDotsOrNone : Prop :=
  ∀ s : State,
    (s.host.inputs = [] → takeInputs s = { s with host := { s.host with calls := [] } }) ∧
    (∀ i rest, s.host.inputs = i :: rest →
      takeInputs s =
        { s with
          cpu := { s.cpu with resetPending := s.cpu.resetPending || i.resetReq }
          host :=
            { s.host with
              run := i.run, irqLine := i.irqLine, sinkReady := i.sinkReady, inputs := rest, calls := [] } }) ∧
    let asked : Bool := match s.host.inputs with | [] => false | i :: _ => i.resetReq
    ((takeInputs s).host.run = true → s.cpu.fault = none →
      let d := dots (takeInputs s)
      (∃ t, step s = .next t ∧ t.dotsTotal = s.dotsTotal + 3) ∧
      (d.cpu = { s.cpu with resetPending := s.cpu.resetPending || asked } ∧
        d.host = { (takeInputs s).host with calls := d.host.calls }) ∧
      (s.cpu.budget ≠ 0 → step s = .next { d with cpu := { d.cpu with budget := s.cpu.budget - 1 } }) ∧
      (s.cpu.budget = 0 → ∃ t, boundary d = .next t ∧
        step s = .next (if t.cpu.fault = none then { t with cpu := { t.cpu with budget := t.cpu.budget - 1 } } else t))) ∧
    ((takeInputs s).host.run = false →
      step s = .next
        { s with
          cpu := { s.cpu with resetPending := s.cpu.resetPending || asked }
          host := (takeInputs s).host }) ∧
    (s.host.run = false → s.host.inputs = [] → s.host.calls = [] → step s = .next s) ∧
    (∀ f, (takeInputs s).host.run = true → s.cpu.fault = some f → step s = .fault (.decodeFailure f.opcode f.addr))
end

