-- ==== Sys2Proof/Laws/Decode.lean ====
section
/-! SUPPORT. Laws/Decode.lean: bytes and words, the lengths of instructions, and what decoding reads of its bytes. -/

namespace Sys2Proof

/-! ## Bytes and words -/

theorem wordOf_toNat (l h : Byte) : (wordOf l h).toNat = l.toNat + 256 * h.toNat := by
  simp only [wordOf, BitVec.toNat_append]
  rw [Nat.shiftLeft_eq, Nat.mul_comm, ← Nat.two_pow_add_eq_or_of_lt l.isLt]
  omega

theorem wordOf_eq (l h : Byte) : wordOf l h = BitVec.ofNat 16 (l.toNat + 256 * h.toNat) := by
  rw [← wordOf_toNat]; simp

theorem lowByte_eq (w : Word) : lowByte w = BitVec.ofNat 8 w.toNat := by
  apply BitVec.eq_of_toNat_eq; simp [lowByte]

theorem highByte_eq (w : Word) : highByte w = BitVec.ofNat 8 (w.toNat / 256) := by
  apply BitVec.eq_of_toNat_eq; simp [highByte, Nat.shiftRight_eq_div_pow]

@[simp] theorem wordOf_low_high (w : Word) : wordOf (lowByte w) (highByte w) = w := by
  apply BitVec.eq_of_toNat_eq
  rw [wordOf_toNat, lowByte_eq, highByte_eq, BitVec.toNat_ofNat, BitVec.toNat_ofNat]
  omega

@[simp] theorem lowByte_wordOf (l h : Byte) : lowByte (wordOf l h) = l := by
  apply BitVec.eq_of_toNat_eq; rw [lowByte_eq, wordOf_toNat, BitVec.toNat_ofNat]; omega

@[simp] theorem highByte_wordOf (l h : Byte) : highByte (wordOf l h) = h := by
  apply BitVec.eq_of_toNat_eq; rw [highByte_eq, wordOf_toNat, BitVec.toNat_ofNat]; omega

theorem zext16_toNat (b : Byte) : (zext16 b).toNat = b.toNat := by
  simp [zext16]; omega

theorem zext16_eq (b : Byte) : zext16 b = BitVec.ofNat 16 b.toNat := by
  apply BitVec.eq_of_toNat_eq; simp [zext16]

/-! ## Lengths -/

theorem encode_ne_nil (i : Instr) : encode i ≠ [] := by simp [encode]

theorem Mode.bytes_length_le (m : Mode) : m.bytes.length ≤ 2 := by cases m <;> simp [Mode.bytes]

theorem encode_length_pos (i : Instr) : 1 ≤ (encode i).length := by simp [encode]

theorem encode_length_le (i : Instr) : (encode i).length ≤ maxLength := by
  have := i.mode.bytes_length_le
  simp [encode, maxLength]; omega

/-- The opcode of every instruction but the decode failure is none of the 98 bytes. -/
theorem opcode_legal (i : Instr) (h : i.mnemonic ≠ .decodeFailure) : i.opcode ∉ illegalOpcodes := by
  cases i <;> first | exact absurd rfl h | (simp only [Instr.opcode]; decide +kernel)

/-- Of the instructions that are no decode failure only ISC has one of the seven bytes. -/
theorem opcode_isc (i : Instr) (h : i.mnemonic ≠ .decodeFailure) : i.opcode ∈ iscBytes → i.mnemonic = .isc := by
  cases i <;> first
    | exact absurd rfl h
    | exact fun _ => rfl
    | (simp only [Instr.opcode]; intro h; exact absurd h (by decide))

theorem decodeFailure_of_mnemonic (i : Instr) (h : i.mnemonic = .decodeFailure) : i = .decodeFailure i.opcode := by
  cases i <;> cases h; rfl

/-- A well-formed ISC is admitted. -/
theorem admits_of_wf (cfg : Config) (i : Instr) (hi : i.wf cfg = true) (h : i.mnemonic = .isc) : cfg.admitsIsc i.opcode = true := by
  cases i <;> cases h <;> exact hi

/-- A well-formed instruction's opcode is rejected exactly when it is the decode failure. -/
theorem rejects_opcode (cfg : Config) (i : Instr) (hi : i.wf cfg = true) :
    cfg.rejects i.opcode = true ↔ i.mnemonic = .decodeFailure := by
  constructor
  · intro h
    by_contra hn
    have hl := opcode_legal i hn
    have hs := opcode_isc i hn
    simp only [Config.rejects, Bool.or_eq_true, Bool.and_eq_true, List.contains_iff_mem, Bool.not_eq_true'] at h
    rcases h with h | ⟨h, h'⟩
    · exact hl h
    · simp [admits_of_wf cfg i hi (hs h)] at h'
  · intro h
    rw [decodeFailure_of_mnemonic i h] at hi
    exact hi

/-! ## The mnemonics with one form -/

theorem Instr.eq_tax (i : Instr) (h : i.mnemonic = .tax) : i = .tax := by cases i <;> cases h; rfl
theorem Instr.eq_tay (i : Instr) (h : i.mnemonic = .tay) : i = .tay := by cases i <;> cases h; rfl
theorem Instr.eq_txa (i : Instr) (h : i.mnemonic = .txa) : i = .txa := by cases i <;> cases h; rfl
theorem Instr.eq_tya (i : Instr) (h : i.mnemonic = .tya) : i = .tya := by cases i <;> cases h; rfl
theorem Instr.eq_tsx (i : Instr) (h : i.mnemonic = .tsx) : i = .tsx := by cases i <;> cases h; rfl
theorem Instr.eq_inx (i : Instr) (h : i.mnemonic = .inx) : i = .inx := by cases i <;> cases h; rfl
theorem Instr.eq_dex (i : Instr) (h : i.mnemonic = .dex) : i = .dex := by cases i <;> cases h; rfl
theorem Instr.eq_iny (i : Instr) (h : i.mnemonic = .iny) : i = .iny := by cases i <;> cases h; rfl
theorem Instr.eq_dey (i : Instr) (h : i.mnemonic = .dey) : i = .dey := by cases i <;> cases h; rfl
theorem Instr.eq_txs (i : Instr) (h : i.mnemonic = .txs) : i = .txs := by cases i <;> cases h; rfl
theorem Instr.eq_clc (i : Instr) (h : i.mnemonic = .clc) : i = .clc := by cases i <;> cases h; rfl
theorem Instr.eq_sec (i : Instr) (h : i.mnemonic = .sec) : i = .sec := by cases i <;> cases h; rfl
theorem Instr.eq_cli (i : Instr) (h : i.mnemonic = .cli) : i = .cli := by cases i <;> cases h; rfl
theorem Instr.eq_sei (i : Instr) (h : i.mnemonic = .sei) : i = .sei := by cases i <;> cases h; rfl
theorem Instr.eq_clv (i : Instr) (h : i.mnemonic = .clv) : i = .clv := by cases i <;> cases h; rfl
theorem Instr.eq_cld (i : Instr) (h : i.mnemonic = .cld) : i = .cld := by cases i <;> cases h; rfl
theorem Instr.eq_sed (i : Instr) (h : i.mnemonic = .sed) : i = .sed := by cases i <;> cases h; rfl
theorem Instr.eq_nop (i : Instr) (h : i.mnemonic = .nop) : i = .nop := by cases i <;> cases h; rfl
theorem Instr.eq_pha (i : Instr) (h : i.mnemonic = .pha) : i = .pha := by cases i <;> cases h; rfl
theorem Instr.eq_php (i : Instr) (h : i.mnemonic = .php) : i = .php := by cases i <;> cases h; rfl
theorem Instr.eq_pla (i : Instr) (h : i.mnemonic = .pla) : i = .pla := by cases i <;> cases h; rfl
theorem Instr.eq_plp (i : Instr) (h : i.mnemonic = .plp) : i = .plp := by cases i <;> cases h; rfl
theorem Instr.eq_rts (i : Instr) (h : i.mnemonic = .rts) : i = .rts := by cases i <;> cases h; rfl
theorem Instr.eq_rti (i : Instr) (h : i.mnemonic = .rti) : i = .rti := by cases i <;> cases h; rfl
theorem Instr.eq_brk (i : Instr) (h : i.mnemonic = .brk) : i = .brk := by cases i <;> cases h; rfl
theorem Instr.eq_bpl (i : Instr) (h : i.mnemonic = .bpl) : ∃ a, i = .bpl a := by cases i <;> cases h; exact ⟨_, rfl⟩
theorem Instr.eq_bmi (i : Instr) (h : i.mnemonic = .bmi) : ∃ a, i = .bmi a := by cases i <;> cases h; exact ⟨_, rfl⟩
theorem Instr.eq_bvc (i : Instr) (h : i.mnemonic = .bvc) : ∃ a, i = .bvc a := by cases i <;> cases h; exact ⟨_, rfl⟩
theorem Instr.eq_bvs (i : Instr) (h : i.mnemonic = .bvs) : ∃ a, i = .bvs a := by cases i <;> cases h; exact ⟨_, rfl⟩
theorem Instr.eq_bcc (i : Instr) (h : i.mnemonic = .bcc) : ∃ a, i = .bcc a := by cases i <;> cases h; exact ⟨_, rfl⟩
theorem Instr.eq_bcs (i : Instr) (h : i.mnemonic = .bcs) : ∃ a, i = .bcs a := by cases i <;> cases h; exact ⟨_, rfl⟩
theorem Instr.eq_bne (i : Instr) (h : i.mnemonic = .bne) : ∃ a, i = .bne a := by cases i <;> cases h; exact ⟨_, rfl⟩
theorem Instr.eq_beq (i : Instr) (h : i.mnemonic = .beq) : ∃ a, i = .beq a := by cases i <;> cases h; exact ⟨_, rfl⟩
theorem Instr.eq_jsr (i : Instr) (h : i.mnemonic = .jsr) : ∃ a, i = .jsr a := by cases i <;> cases h; exact ⟨_, rfl⟩

end Sys2Proof
end

