-- ==== Sys2Proof/Laws/Flags.lean ====
section
/-! SUPPORT. Laws/Flags.lean: every flag after every operation that writes `P`, and the adder in arithmetic. -/

namespace Sys2Proof.Machine

theorem Flag.bit_lt (f : Flag) : f.bit < 8 := by cases f <;> decide

theorem Flag.bit_inj {f g : Flag} : f.bit = g.bit ↔ f = g := by cases f <;> cases g <;> decide

@[simp] theorem Flag.getLsbD_mask (f : Flag) (k : Nat) : f.mask.getLsbD k = decide (k = f.bit) := by
  unfold Flag.mask
  by_cases hk : k < 8
  · have := f.bit_lt
    rcases f with _ | _ | _ | _ | _ | _ | _ | _ <;> (simp only [Flag.bit]; interval_cases k <;> decide)
  · have := f.bit_lt
    rw [BitVec.getLsbD_of_ge _ _ (by omega)]
    simp; omega

/-- Writing a flag writes that bit of `P` and no other. -/
theorem getLsbD_setFlag (f : Flag) (on : Bool) (p : Byte) (k : Nat) (hk : k < 8) :
    (setFlag f on p).getLsbD k = if k = f.bit then on else p.getLsbD k := by
  unfold setFlag
  cases on
  · rw [if_neg Bool.false_ne_true, BitVec.getLsbD_and, BitVec.getLsbD_not, Flag.getLsbD_mask]
    by_cases h : k = f.bit <;> simp [h, hk]
  · rw [if_pos rfl, BitVec.getLsbD_or, Flag.getLsbD_mask]
    by_cases h : k = f.bit <;> simp [h]

@[simp] theorem getFlag_setFlag (f g : Flag) (on : Bool) (p : Byte) :
    getFlag f (setFlag g on p) = if f = g then on else getFlag f p := by
  unfold getFlag
  rw [getLsbD_setFlag _ _ _ _ f.bit_lt]
  simp only [Flag.bit_inj]

/-- `P` is its eight flags. -/
theorem byte_ext_flags {p q : Byte} (h : ∀ f, getFlag f p = getFlag f q) : p = q := by
  apply BitVec.eq_of_getLsbD_eq
  intro i hi
  interval_cases i
  · exact h .c
  · exact h .z
  · exact h .i
  · exact h .d
  · exact h .b
  · exact h .u
  · exact h .v
  · exact h .n

@[simp] theorem getFlag_setNZ (f : Flag) (r p : Byte) :
    getFlag f (setNZ r p) = if f = .n then r.msb else if f = .z then r == 0 else getFlag f p := by
  simp [setNZ]

@[simp] theorem getFlag_addFlags (f : Flag) (t : Sum) (p : Byte) :
    getFlag f (addFlags t p) =
      if f = .n then t.r.msb else if f = .z then t.r == 0 else if f = .v then t.overflow else if f = .c then t.carry
      else getFlag f p := by
  simp [addFlags]

@[simp] theorem getFlag_compareFlags (f : Flag) (r m p : Byte) :
    getFlag f (compareFlags r m p) =
      if f = .n then (r - m).msb else if f = .z then r == m else if f = .c then decide (m.toNat ≤ r.toNat)
      else getFlag f p := by
  simp [compareFlags]

@[simp] theorem getFlag_bitFlags (f : Flag) (a m p : Byte) :
    getFlag f (bitFlags a m p) =
      if f = .n then m.getLsbD 7 else if f = .v then m.getLsbD 6 else if f = .z then (a &&& m) == 0
      else getFlag f p := by
  simp [bitFlags]

theorem getFlag_pulledStatus (f : Flag) (b : Byte) :
    getFlag f (pulledStatus b) = if f = .b then false else if f = .u then true else getFlag f b := by
  cases f <;> simp [getFlag, pulledStatus, Flag.bit]

theorem getFlag_pushedByProgram (f : Flag) (p : Byte) :
    getFlag f (pushedByProgram p) = if f = .b then true else if f = .u then true else getFlag f p := by
  cases f <;> simp [getFlag, pushedByProgram, Flag.bit]

theorem getFlag_pushedByService (f : Flag) (p : Byte) :
    getFlag f (pushedByService p) = if f = .b then false else if f = .u then true else getFlag f p := by
  cases f <;> simp [getFlag, pushedByService, Flag.bit]

/-- What PLP or RTI restores of what a program or a service pushed: a live `P`, whole (R111). -/
theorem pulledStatus_pushed (p : Byte) (hb : getFlag .b p = false) (hu : getFlag .u p = true) :
    pulledStatus (pushedByProgram p) = p ∧ pulledStatus (pushedByService p) = p := by
  constructor <;> apply byte_ext_flags <;> intro f <;>
    rw [getFlag_pulledStatus] <;> simp only [getFlag_pushedByProgram, getFlag_pushedByService] <;> cases f <;> simp [hb, hu]

/-! ## The adder (R700) -/

theorem addWithCarry_r (a m : Byte) (c : Bool) : (addWithCarry a m c).r = BitVec.ofNat 8 (a.toNat + m.toNat + c.toNat) := rfl

theorem addWithCarry_carry (a m : Byte) (c : Bool) :
    (addWithCarry a m c).carry = decide (255 < a.toNat + m.toNat + c.toNat) := rfl

/-- The overflow in terms of the three signs. -/
theorem addWithCarry_overflow (a m : Byte) (c : Bool) :
    (addWithCarry a m c).overflow = (a.msb == m.msb && a.msb != (addWithCarry a m c).r.msb) := by
  simp only [addWithCarry]
  generalize BitVec.ofNat 8 (a.toNat + m.toNat + c.toNat) = r
  have h : ∀ x : Byte, ((x &&& 0x80#8) != 0#8) = x.msb := by decide
  rw [show ((0x80 : Byte)) = 0x80#8 from rfl, show ((0 : Byte)) = 0#8 from rfl, h]
  simp only [BitVec.msb_and, BitVec.msb_xor]
  cases a.msb <;> cases m.msb <;> cases r.msb <;> rfl

end Sys2Proof.Machine
end

