-- ==== Sys2Proof/Laws/Memory.lean ====
section
/-! SUPPORT. Laws/Memory.lean: reading after writing, and that every memory operation keeps the canonical form. -/

namespace Sys2Proof.Machine

@[simp] theorem Memory.read_nil (a : Nat) : Memory.read [] a = Memory.unlisted := rfl

@[simp] theorem Memory.above_nil (n : Nat) : Memory.above n [] = true := rfl

@[simp] theorem Memory.below_nil (n : Nat) : Memory.below n [] = true := rfl

@[simp] theorem Memory.wf_nil : Memory.wf [] = true := rfl

@[simp] theorem Memory.ok_nil (n : Nat) : Memory.ok n [] = true := rfl

@[simp] theorem Memory.above_cons (n k : Nat) (b : Byte) (m : Memory) :
    Memory.above n ((k, b) :: m) = true ↔ n ≤ k ∧ Memory.above n m = true := by simp [Memory.above]

@[simp] theorem Memory.below_cons (n k : Nat) (b : Byte) (m : Memory) :
    Memory.below n ((k, b) :: m) = true ↔ k < n ∧ Memory.below n m = true := by simp [Memory.below]

@[simp] theorem Memory.wf_cons (k : Nat) (b : Byte) (m : Memory) :
    Memory.wf ((k, b) :: m) = true ↔ b ≠ Memory.unlisted ∧ Memory.above (k + 1) m = true ∧ Memory.wf m = true := by
  simp [Memory.wf, and_assoc]

theorem Memory.above_mono {n n' : Nat} (h : n' ≤ n) {m : Memory} (hm : Memory.above n m = true) :
    Memory.above n' m = true := by
  induction m with
  | nil => rfl
  | cons c m ih => obtain ⟨k, b⟩ := c; simp only [Memory.above_cons] at *; exact ⟨by omega, ih hm.2⟩

/-- Below every listed address a memory reads as unlisted. -/
theorem Memory.read_of_above {m : Memory} {n a : Nat} (h : Memory.above n m = true) (ha : a < n) :
    Memory.read m a = Memory.unlisted := by
  cases m with
  | nil => rfl
  | cons c m =>
    obtain ⟨k, b⟩ := c
    have := ((Memory.above_cons ..).1 h).1
    simp only [Memory.read]
    rw [if_neg (by omega), if_pos (by omega)]

theorem Memory.read_push (a : Nat) (b : Byte) (m : Memory) (h : Memory.above (a + 1) m = true) (x : Nat) :
    Memory.read (Memory.push a b m) x = if x = a then b else Memory.read m x := by
  unfold Memory.push
  by_cases hb : b = Memory.unlisted
  · by_cases hx : x = a
    · subst hx; simp [hb, Memory.read_of_above h (Nat.lt_succ_self x)]
    · simp [hb, hx]
  · by_cases hx : x = a
    · simp [hb, hx, Memory.read]
    · by_cases hlt : x < a
      · simp [hb, hx, hlt, Memory.read, Memory.read_of_above h (show x < a + 1 by omega)]
      · simp [hb, hx, hlt, Memory.read]

/-- The basic law: a write changes the byte at its address and no other. -/
theorem Memory.read_write (m : Memory) (hm : m.wf = true) (a : Nat) (b : Byte) (x : Nat) :
    Memory.read (Memory.write m a b) x = if x = a then b else Memory.read m x := by
  induction m with
  | nil => rw [Memory.write, Memory.read_push _ _ _ (Memory.above_nil _)]
  | cons c m ih =>
    obtain ⟨k, d⟩ := c
    obtain ⟨hd, hk, hw⟩ := (Memory.wf_cons ..).1 hm
    simp only [Memory.write]
    by_cases h1 : a = k
    · subst h1
      rw [if_pos rfl, Memory.read_push _ _ _ hk]
      by_cases hx : x = a
      · simp [hx]
      · by_cases hlt : x < a
        · simp [hx, hlt, Memory.read, Memory.read_of_above hk (show x < a + 1 by omega)]
        · simp [hx, hlt, Memory.read]
    · rw [if_neg h1]
      by_cases h2 : a < k
      · rw [if_pos h2, Memory.read_push]
        exact (Memory.above_cons ..).2 ⟨by omega, Memory.above_mono (by omega) hk⟩
      · rw [if_neg h2]
        simp only [Memory.read, ih hw]
        by_cases hx : x = k
        · have : x ≠ a := by omega
          simp [hx, show k ≠ a by omega]
        · by_cases hlt : x < k
          · simp [hx, hlt, show x ≠ a by omega]
          · simp [hx, hlt]

@[simp] theorem Memory.read_write_same (m : Memory) (hm : m.wf = true) (a : Nat) (b : Byte) :
    Memory.read (Memory.write m a b) a = b := by simp [Memory.read_write m hm]

theorem Memory.read_write_other (m : Memory) (hm : m.wf = true) {a x : Nat} (b : Byte) (h : x ≠ a) :
    Memory.read (Memory.write m a b) x = Memory.read m x := by simp [Memory.read_write m hm, h]

theorem Memory.above_write {m : Memory} {n a : Nat} (b : Byte) (h : Memory.above n m = true) (ha : n ≤ a) :
    Memory.above n (Memory.write m a b) = true := by
  induction m with
  | nil => simp only [Memory.write, Memory.push]; split <;> simp [ha]
  | cons c m ih =>
    obtain ⟨k, d⟩ := c
    obtain ⟨h1, h2⟩ := (Memory.above_cons ..).1 h
    simp only [Memory.write]
    split
    · simp only [Memory.push]; split <;> simp [*]
    · split
      · simp only [Memory.push]; split <;> simp [*]
      · simp [ih h2, h1]

/-- A write keeps the canonical form. -/
theorem Memory.wf_write {m : Memory} (a : Nat) (b : Byte) (hm : m.wf = true) : (Memory.write m a b).wf = true := by
  induction m with
  | nil => simp only [Memory.write, Memory.push]; split <;> simp [*]
  | cons c m ih =>
    obtain ⟨k, d⟩ := c
    obtain ⟨hd, hk, hw⟩ := (Memory.wf_cons ..).1 hm
    simp only [Memory.write]
    split
    · rename_i h; subst h
      simp only [Memory.push]; split <;> simp [*]
    · split
      · simp only [Memory.push]
        split
        · exact hm
        · simp only [Memory.wf_cons, Memory.above_cons]
          exact ⟨‹_›, ⟨by omega, Memory.above_mono (by omega) hk⟩, hd, hk, hw⟩
      · simp only [Memory.wf_cons]
        exact ⟨hd, Memory.above_write b hk (by omega), ih hw⟩

theorem Memory.below_write {m : Memory} {n a : Nat} (b : Byte) (h : Memory.below n m = true) (ha : a < n) :
    Memory.below n (Memory.write m a b) = true := by
  induction m with
  | nil => simp only [Memory.write, Memory.push]; split <;> simp [ha]
  | cons c m ih =>
    obtain ⟨k, d⟩ := c
    obtain ⟨h1, h2⟩ := (Memory.below_cons ..).1 h
    simp only [Memory.write]
    split
    · simp only [Memory.push]; split <;> simp [*]
    · split
      · simp only [Memory.push]; split <;> simp [*]
      · simp [ih h2, h1]

theorem Memory.ok_iff (n : Nat) (m : Memory) : Memory.ok n m = true ↔ m.wf = true ∧ Memory.below n m = true := by
  simp [Memory.ok]

/-- A write inside a memory's size keeps its form and size. -/
theorem Memory.ok_write {m : Memory} {n a : Nat} (b : Byte) (h : Memory.ok n m = true) (ha : a < n) :
    Memory.ok n (Memory.write m a b) = true := by
  rw [Memory.ok_iff] at *
  exact ⟨Memory.wf_write a b h.1, Memory.below_write b h.2 ha⟩

theorem Memory.ok_writeBytes {n : Nat} (bs : List Byte) :
    ∀ {m : Memory} {a : Nat}, Memory.ok n m = true → a + bs.length ≤ n → Memory.ok n (Memory.writeBytes m a bs) = true := by
  induction bs with
  | nil => intro m a h _; exact h
  | cons b bs ih =>
    intro m a h ha
    simp only [List.length_cons] at ha
    exact ih (Memory.ok_write b h (by omega)) (by omega)

/-- What a run of written bytes reads as. -/
theorem Memory.read_writeBytes (bs : List Byte) :
    ∀ (m : Memory) (a x : Nat), m.wf = true →
      Memory.read (Memory.writeBytes m a bs) x =
        if a ≤ x ∧ x < a + bs.length then bs.getD (x - a) Memory.unlisted else Memory.read m x := by
  induction bs with
  | nil => intro m a x _; simp [Memory.writeBytes]
  | cons b bs ih =>
    intro m a x hm
    rw [Memory.writeBytes, ih _ _ _ (Memory.wf_write a b hm), Memory.read_write m hm]
    simp only [List.length_cons]
    by_cases hx : x = a
    · subst hx
      rw [if_neg (by omega), if_pos rfl, if_pos (by omega)]
      simp
    · rw [if_neg hx]
      by_cases h : a + 1 ≤ x ∧ x < a + 1 + bs.length
      · rw [if_pos h, if_pos (by omega)]
        obtain ⟨j, rfl⟩ : ∃ j, x = a + 1 + j := ⟨x - (a + 1), by omega⟩
        rw [show a + 1 + j - (a + 1) = j by omega, show a + 1 + j - a = j + 1 by omega]
        simp
      · rw [if_neg h, if_neg (by omega)]

/-- Two canonical memories that read alike are equal data. -/
theorem Memory.ext_of_read : ∀ (m m' : Memory), m.wf = true → m'.wf = true → (∀ a, Memory.read m a = Memory.read m' a) → m = m'
  | [], [], _, _, _ => rfl
  | [], (k, b) :: m', _, h', h => by
    have := h k
    simp only [Memory.read, if_true] at this
    exact absurd this.symm ((Memory.wf_cons ..).1 h').1
  | (k, b) :: m, [], h', _, h => by
    have := h k
    simp only [Memory.read, if_true] at this
    exact absurd this ((Memory.wf_cons ..).1 h').1
  | (k, b) :: m, (k', b') :: m', hm, hm', h => by
    obtain ⟨hb, hk, hw⟩ := (Memory.wf_cons ..).1 hm
    obtain ⟨hb', hk', hw'⟩ := (Memory.wf_cons ..).1 hm'
    have e : k = k' := by
      rcases Nat.lt_trichotomy k k' with hlt | he | hlt
      · have := h k
        simp only [Memory.read, if_true, if_neg (show k ≠ k' by omega), if_pos hlt] at this
        exact absurd this hb
      · exact he
      · have := h k'
        simp only [Memory.read, if_true, if_neg (show k' ≠ k by omega), if_pos hlt] at this
        exact absurd this.symm hb'
    subst e
    have e2 := h k
    simp only [Memory.read, if_true] at e2
    subst e2
    congr 1
    refine Memory.ext_of_read m m' hw hw' fun a => ?_
    have ha := h a
    simp only [Memory.read] at ha
    by_cases h1 : a < k + 1
    · rw [Memory.read_of_above hk h1, Memory.read_of_above hk' h1]
    · rwa [if_neg (by omega), if_neg (by omega), if_neg (by omega), if_neg (by omega)] at ha

/-! ## Where addresses land -/

/-- Masking with all ones below a power of two is the remainder. -/
theorem toNat_and_mask (a m : Word) (n : Nat) (hm : m.toNat = 2 ^ n - 1) : (a &&& m).toNat = a.toNat % 2 ^ n := by
  rw [BitVec.toNat_and, hm, Nat.and_two_pow_sub_one_eq_mod]

theorem wramIndex_eq_mod (a : Word) : wramIndex a = a.toNat % 0x800 := toNat_and_mask a _ 11 rfl

theorem wramIndex_lt (a : Word) : wramIndex a < wramSize := by
  rw [wramIndex_eq_mod]; exact Nat.mod_lt _ (by decide)

theorem prgIndex_one (a : Word) : prgIndex .one a = a.toNat % 0x4000 := toNat_and_mask a _ 14 rfl

theorem prgIndex_two (a : Word) : prgIndex .two a = a.toNat % 0x8000 := toNat_and_mask a _ 15 rfl

theorem prgIndex_lt (banks : PrgBanks) (a : Word) : prgIndex banks a < prgSize banks := by
  cases banks
  · rw [prgIndex_one]; exact Nat.mod_lt _ (by decide)
  · rw [prgIndex_two]; exact Nat.mod_lt _ (by decide)

theorem ntIndex_lt (mir : Mirroring) (a : Word) : ntIndex mir a < ciramSize := by
  unfold ntIndex ciramSize
  cases mir <;> simp only <;> split <;> omega

theorem palIndex_eq (a : Word) :
    palIndex a = if a.toNat % 0x20 ∈ [0x10, 0x14, 0x18, 0x1C] then a.toNat % 0x20 - 0x10 else a.toNat % 0x20 := by
  have : (a &&& 0x1F).toNat = a.toNat % 0x20 := toNat_and_mask a _ 5 rfl
  simp only [palIndex, this, List.mem_cons, List.not_mem_nil, or_false]

theorem palIndex_lt (a : Word) : palIndex a < palSize := by
  rw [palIndex_eq]
  unfold palSize
  split <;> omega

end Sys2Proof.Machine
end

