-- ==== Sys2Proof/Laws/State.lean ====
section
/-! SUPPORT. Laws/State.lean: what each field of the state is after each named update. -/

namespace Sys2Proof.Machine

/-! ## State.mapCpu -/

@[simp] theorem State.mapCpu_cfg (f : Cpu → Cpu) (s : State) : (s.mapCpu f).cfg = s.cfg := rfl
@[simp] theorem State.mapCpu_cpu (f : Cpu → Cpu) (s : State) : (s.mapCpu f).cpu = f s.cpu := rfl
@[simp] theorem State.mapCpu_ppu (f : Cpu → Cpu) (s : State) : (s.mapCpu f).ppu = s.ppu := rfl
@[simp] theorem State.mapCpu_nmiLine (f : Cpu → Cpu) (s : State) : (s.mapCpu f).nmiLine = s.nmiLine := rfl
@[simp] theorem State.mapCpu_wram (f : Cpu → Cpu) (s : State) : (s.mapCpu f).wram = s.wram := rfl
@[simp] theorem State.mapCpu_prg (f : Cpu → Cpu) (s : State) : (s.mapCpu f).prg = s.prg := rfl
@[simp] theorem State.mapCpu_dotsTotal (f : Cpu → Cpu) (s : State) : (s.mapCpu f).dotsTotal = s.dotsTotal := rfl
@[simp] theorem State.mapCpu_wq (f : Cpu → Cpu) (s : State) : (s.mapCpu f).wq = s.wq := rfl
@[simp] theorem State.mapCpu_pad (f : Cpu → Cpu) (s : State) : (s.mapCpu f).pad = s.pad := rfl
@[simp] theorem State.mapCpu_host (f : Cpu → Cpu) (s : State) : (s.mapCpu f).host = s.host := rfl

/-! ## State.mapPpu -/

@[simp] theorem State.mapPpu_cfg (f : Ppu → Ppu) (s : State) : (s.mapPpu f).cfg = s.cfg := rfl
@[simp] theorem State.mapPpu_cpu (f : Ppu → Ppu) (s : State) : (s.mapPpu f).cpu = s.cpu := rfl
@[simp] theorem State.mapPpu_ppu (f : Ppu → Ppu) (s : State) : (s.mapPpu f).ppu = f s.ppu := rfl
@[simp] theorem State.mapPpu_nmiLine (f : Ppu → Ppu) (s : State) : (s.mapPpu f).nmiLine = s.nmiLine := rfl
@[simp] theorem State.mapPpu_wram (f : Ppu → Ppu) (s : State) : (s.mapPpu f).wram = s.wram := rfl
@[simp] theorem State.mapPpu_prg (f : Ppu → Ppu) (s : State) : (s.mapPpu f).prg = s.prg := rfl
@[simp] theorem State.mapPpu_dotsTotal (f : Ppu → Ppu) (s : State) : (s.mapPpu f).dotsTotal = s.dotsTotal := rfl
@[simp] theorem State.mapPpu_wq (f : Ppu → Ppu) (s : State) : (s.mapPpu f).wq = s.wq := rfl
@[simp] theorem State.mapPpu_pad (f : Ppu → Ppu) (s : State) : (s.mapPpu f).pad = s.pad := rfl
@[simp] theorem State.mapPpu_host (f : Ppu → Ppu) (s : State) : (s.mapPpu f).host = s.host := rfl

/-! ## State.call -/

@[simp] theorem State.call_cfg (c : HostCall) (s : State) : (s.call c).cfg = s.cfg := rfl
@[simp] theorem State.call_cpu (c : HostCall) (s : State) : (s.call c).cpu = s.cpu := rfl
@[simp] theorem State.call_ppu (c : HostCall) (s : State) : (s.call c).ppu = s.ppu := rfl
@[simp] theorem State.call_nmiLine (c : HostCall) (s : State) : (s.call c).nmiLine = s.nmiLine := rfl
@[simp] theorem State.call_wram (c : HostCall) (s : State) : (s.call c).wram = s.wram := rfl
@[simp] theorem State.call_prg (c : HostCall) (s : State) : (s.call c).prg = s.prg := rfl
@[simp] theorem State.call_dotsTotal (c : HostCall) (s : State) : (s.call c).dotsTotal = s.dotsTotal := rfl
@[simp] theorem State.call_wq (c : HostCall) (s : State) : (s.call c).wq = s.wq := rfl
@[simp] theorem State.call_pad (c : HostCall) (s : State) : (s.call c).pad = s.pad := rfl
@[simp] theorem State.call_host (c : HostCall) (s : State) : (s.call c).host = { s.host with calls := s.host.calls ++ [c] } := rfl

/-! ## State.setPc -/

@[simp] theorem State.setPc_cfg (w : Word) (s : State) : (s.setPc w).cfg = s.cfg := rfl
@[simp] theorem State.setPc_cpu (w : Word) (s : State) : (s.setPc w).cpu = { s.cpu with pc := w } := rfl
@[simp] theorem State.setPc_ppu (w : Word) (s : State) : (s.setPc w).ppu = s.ppu := rfl
@[simp] theorem State.setPc_nmiLine (w : Word) (s : State) : (s.setPc w).nmiLine = s.nmiLine := rfl
@[simp] theorem State.setPc_wram (w : Word) (s : State) : (s.setPc w).wram = s.wram := rfl
@[simp] theorem State.setPc_prg (w : Word) (s : State) : (s.setPc w).prg = s.prg := rfl
@[simp] theorem State.setPc_dotsTotal (w : Word) (s : State) : (s.setPc w).dotsTotal = s.dotsTotal := rfl
@[simp] theorem State.setPc_wq (w : Word) (s : State) : (s.setPc w).wq = s.wq := rfl
@[simp] theorem State.setPc_pad (w : Word) (s : State) : (s.setPc w).pad = s.pad := rfl
@[simp] theorem State.setPc_host (w : Word) (s : State) : (s.setPc w).host = s.host := rfl

/-! ## State.charge -/

@[simp] theorem State.charge_cfg (n : Nat) (s : State) : (s.charge n).cfg = s.cfg := rfl
@[simp] theorem State.charge_cpu (n : Nat) (s : State) : (s.charge n).cpu = { s.cpu with budget := n } := rfl
@[simp] theorem State.charge_ppu (n : Nat) (s : State) : (s.charge n).ppu = s.ppu := rfl
@[simp] theorem State.charge_nmiLine (n : Nat) (s : State) : (s.charge n).nmiLine = s.nmiLine := rfl
@[simp] theorem State.charge_wram (n : Nat) (s : State) : (s.charge n).wram = s.wram := rfl
@[simp] theorem State.charge_prg (n : Nat) (s : State) : (s.charge n).prg = s.prg := rfl
@[simp] theorem State.charge_dotsTotal (n : Nat) (s : State) : (s.charge n).dotsTotal = s.dotsTotal := rfl
@[simp] theorem State.charge_wq (n : Nat) (s : State) : (s.charge n).wq = s.wq := rfl
@[simp] theorem State.charge_pad (n : Nat) (s : State) : (s.charge n).pad = s.pad := rfl
@[simp] theorem State.charge_host (n : Nat) (s : State) : (s.charge n).host = s.host := rfl

/-! ## State.spend -/

@[simp] theorem State.spend_cfg (s : State) : s.spend.cfg = s.cfg := rfl
@[simp] theorem State.spend_cpu (s : State) : s.spend.cpu = { s.cpu with budget := s.cpu.budget - 1 } := rfl
@[simp] theorem State.spend_ppu (s : State) : s.spend.ppu = s.ppu := rfl
@[simp] theorem State.spend_nmiLine (s : State) : s.spend.nmiLine = s.nmiLine := rfl
@[simp] theorem State.spend_wram (s : State) : s.spend.wram = s.wram := rfl
@[simp] theorem State.spend_prg (s : State) : s.spend.prg = s.prg := rfl
@[simp] theorem State.spend_dotsTotal (s : State) : s.spend.dotsTotal = s.dotsTotal := rfl
@[simp] theorem State.spend_wq (s : State) : s.spend.wq = s.wq := rfl
@[simp] theorem State.spend_pad (s : State) : s.spend.pad = s.pad := rfl
@[simp] theorem State.spend_host (s : State) : s.spend.host = s.host := rfl

/-! ## raiseDecodeFailure -/

@[simp] theorem raiseDecodeFailure_cfg (o : Byte) (a : Word) (s : State) : (raiseDecodeFailure o a s).cfg = s.cfg := rfl
@[simp] theorem raiseDecodeFailure_cpu (o : Byte) (a : Word) (s : State) : (raiseDecodeFailure o a s).cpu = { s.cpu with pc := a, fault := some ⟨o, a⟩ } := rfl
@[simp] theorem raiseDecodeFailure_ppu (o : Byte) (a : Word) (s : State) : (raiseDecodeFailure o a s).ppu = s.ppu := rfl
@[simp] theorem raiseDecodeFailure_nmiLine (o : Byte) (a : Word) (s : State) : (raiseDecodeFailure o a s).nmiLine = s.nmiLine := rfl
@[simp] theorem raiseDecodeFailure_wram (o : Byte) (a : Word) (s : State) : (raiseDecodeFailure o a s).wram = s.wram := rfl
@[simp] theorem raiseDecodeFailure_prg (o : Byte) (a : Word) (s : State) : (raiseDecodeFailure o a s).prg = s.prg := rfl
@[simp] theorem raiseDecodeFailure_dotsTotal (o : Byte) (a : Word) (s : State) : (raiseDecodeFailure o a s).dotsTotal = s.dotsTotal := rfl
@[simp] theorem raiseDecodeFailure_wq (o : Byte) (a : Word) (s : State) : (raiseDecodeFailure o a s).wq = s.wq := rfl
@[simp] theorem raiseDecodeFailure_pad (o : Byte) (a : Word) (s : State) : (raiseDecodeFailure o a s).pad = s.pad := rfl
@[simp] theorem raiseDecodeFailure_host (o : Byte) (a : Word) (s : State) : (raiseDecodeFailure o a s).host = s.host := rfl

/-! ## State.callSink -/

@[simp] theorem State.callSink_cfg (c : HostCall) (s : State) : (s.callSink c).cfg = s.cfg := by
  unfold State.callSink; split <;> rfl
@[simp] theorem State.callSink_cpu (c : HostCall) (s : State) : (s.callSink c).cpu = s.cpu := by
  unfold State.callSink; split <;> rfl
@[simp] theorem State.callSink_ppu (c : HostCall) (s : State) : (s.callSink c).ppu = s.ppu := by
  unfold State.callSink; split <;> rfl
@[simp] theorem State.callSink_nmiLine (c : HostCall) (s : State) : (s.callSink c).nmiLine = s.nmiLine := by
  unfold State.callSink; split <;> rfl
@[simp] theorem State.callSink_wram (c : HostCall) (s : State) : (s.callSink c).wram = s.wram := by
  unfold State.callSink; split <;> rfl
@[simp] theorem State.callSink_prg (c : HostCall) (s : State) : (s.callSink c).prg = s.prg := by
  unfold State.callSink; split <;> rfl
@[simp] theorem State.callSink_dotsTotal (c : HostCall) (s : State) : (s.callSink c).dotsTotal = s.dotsTotal := by
  unfold State.callSink; split <;> rfl
@[simp] theorem State.callSink_wq (c : HostCall) (s : State) : (s.callSink c).wq = s.wq := by
  unfold State.callSink; split <;> rfl
@[simp] theorem State.callSink_pad (c : HostCall) (s : State) : (s.callSink c).pad = s.pad := by
  unfold State.callSink; split <;> rfl

theorem State.callSink_host (c : HostCall) (s : State) :
    (s.callSink c).host = if s.host.sinkReady then { s.host with calls := s.host.calls ++ [c] } else s.host := by
  unfold State.callSink; split <;> rfl

/-! ## takeInputs -/

@[simp] theorem takeInputs_cfg (s : State) : (takeInputs s).cfg = s.cfg := by unfold takeInputs; split <;> rfl
@[simp] theorem takeInputs_ppu (s : State) : (takeInputs s).ppu = s.ppu := by unfold takeInputs; split <;> rfl
@[simp] theorem takeInputs_nmiLine (s : State) : (takeInputs s).nmiLine = s.nmiLine := by unfold takeInputs; split <;> rfl
@[simp] theorem takeInputs_wram (s : State) : (takeInputs s).wram = s.wram := by unfold takeInputs; split <;> rfl
@[simp] theorem takeInputs_prg (s : State) : (takeInputs s).prg = s.prg := by unfold takeInputs; split <;> rfl
@[simp] theorem takeInputs_dotsTotal (s : State) : (takeInputs s).dotsTotal = s.dotsTotal := by unfold takeInputs; split <;> rfl
@[simp] theorem takeInputs_wq (s : State) : (takeInputs s).wq = s.wq := by unfold takeInputs; split <;> rfl
@[simp] theorem takeInputs_pad (s : State) : (takeInputs s).pad = s.pad := by unfold takeInputs; split <;> rfl

/-- Taking the inputs leaves the processor but for a reset request. -/
theorem takeInputs_cpu (s : State) : ∃ r, (takeInputs s).cpu = { s.cpu with resetPending := r } := by
  unfold takeInputs; split
  · exact ⟨s.cpu.resetPending, rfl⟩
  · exact ⟨_, rfl⟩

theorem takeInputs_none (s : State) (h : s.host.inputs = []) :
    takeInputs s = { s with host := { s.host with calls := [] } } := by unfold takeInputs; rw [h]

@[simp] theorem takeInputs_calls (s : State) : (takeInputs s).host.calls = [] := by unfold takeInputs; split <;> rfl

end Sys2Proof.Machine
end

