-- ==== Sys2Proof/Laws/Ops.lean ====
section
/-! SUPPORT. Laws/Ops.lean: one lemma per shared operation that says all it can do: the buses, the controller port, the stack, taking an
interrupt and returning from one. -/

namespace Sys2Proof.Machine

/-! ## The dispatch of the processor bus -/

theorem word_le_iff (a b : Word) : a ≤ b ↔ a.toNat ≤ b.toNat := BitVec.le_def

theorem deviceOf_wram_iff (cfg : Config) (a : Word) : deviceOf cfg a = .wram ↔ a.toNat < 0x2000 := by
  unfold deviceOf
  simp only [word_le_iff, BitVec.reduceToNat]
  constructor
  · intro h; by_contra hn; rw [if_neg (by omega)] at h; split at h <;> (try split at h) <;> (try split at h) <;> cases h
  · intro h; rw [if_pos (by omega)]

theorem deviceOf_wram {cfg : Config} {a : Word} (h : a.toNat < 0x2000) : deviceOf cfg a = .wram := (deviceOf_wram_iff cfg a).2 h

theorem deviceOf_ppu {cfg : Config} {a : Word} (h : 0x2000 ≤ a.toNat) (h' : a.toNat < 0x4000) : deviceOf cfg a = .ppu := by
  unfold deviceOf
  simp only [word_le_iff, BitVec.reduceToNat]
  rw [if_neg (by omega), if_pos (by omega)]

theorem deviceOf_pad {cfg : Config} (h : cfg.controller = .standard) : deviceOf cfg 0x4016 = .pad := by
  simp [deviceOf, h]

theorem deviceOf_unmapped {cfg : Config} {a : Word} (h : 0x4000 ≤ a.toNat) (h' : a.toNat < 0x8000)
    (hp : a ≠ 0x4016 ∨ cfg.controller = .absent) : deviceOf cfg a = .unmapped := by
  unfold deviceOf
  simp only [word_le_iff, BitVec.reduceToNat]
  rw [if_neg (by omega), if_neg (by omega), if_neg, if_pos (by omega)]
  rintro ⟨h1, h2⟩
  rcases hp with hp | hp
  · exact hp h1
  · rw [hp] at h2; cases h2

theorem deviceOf_rom {cfg : Config} {a : Word} (h : 0x8000 ≤ a.toNat) : deviceOf cfg a = .rom := by
  unfold deviceOf
  simp only [word_le_iff, BitVec.reduceToNat]
  have : a ≠ 0x4016 := by rintro rfl; simp at h
  rw [if_neg (by omega), if_neg (by omega), if_neg (fun h => this h.1), if_neg (by omega)]

theorem regIndex_eq (a : Word) : regIndex a = BitVec.ofNat 3 a.toNat := by
  apply BitVec.eq_of_toNat_eq; simp [regIndex]

theorem regIndex_congr {a b : Word} (h : a.toNat % 8 = b.toNat % 8) : regIndex a = regIndex b := by
  apply BitVec.eq_of_toNat_eq; simp [regIndex, h]

/-! ## The controller port -/

@[simp] theorem pollButton_cfg (n : Nat) (s : State) : (pollButton n s).2.cfg = s.cfg := by unfold pollButton; dsimp only; split <;> rfl
@[simp] theorem pollButton_cpu (n : Nat) (s : State) : (pollButton n s).2.cpu = s.cpu := by unfold pollButton; dsimp only; split <;> rfl
@[simp] theorem pollButton_ppu (n : Nat) (s : State) : (pollButton n s).2.ppu = s.ppu := by unfold pollButton; dsimp only; split <;> rfl
@[simp] theorem pollButton_nmiLine (n : Nat) (s : State) : (pollButton n s).2.nmiLine = s.nmiLine := by unfold pollButton; dsimp only; split <;> rfl
@[simp] theorem pollButton_wram (n : Nat) (s : State) : (pollButton n s).2.wram = s.wram := by unfold pollButton; dsimp only; split <;> rfl
@[simp] theorem pollButton_prg (n : Nat) (s : State) : (pollButton n s).2.prg = s.prg := by unfold pollButton; dsimp only; split <;> rfl
@[simp] theorem pollButton_dotsTotal (n : Nat) (s : State) : (pollButton n s).2.dotsTotal = s.dotsTotal := by unfold pollButton; dsimp only; split <;> rfl
@[simp] theorem pollButton_wq (n : Nat) (s : State) : (pollButton n s).2.wq = s.wq := by unfold pollButton; dsimp only; split <;> rfl
@[simp] theorem pollButton_pad (n : Nat) (s : State) : (pollButton n s).2.pad = s.pad := by unfold pollButton; dsimp only; split <;> rfl
@[simp] theorem pollButton_run (n : Nat) (s : State) : (pollButton n s).2.host.run = s.host.run := by unfold pollButton; dsimp only; split <;> rfl
@[simp] theorem pollButton_irqLine (n : Nat) (s : State) : (pollButton n s).2.host.irqLine = s.host.irqLine := by unfold pollButton; dsimp only; split <;> rfl
@[simp] theorem pollButton_sinkReady (n : Nat) (s : State) : (pollButton n s).2.host.sinkReady = s.host.sinkReady := by unfold pollButton; dsimp only; split <;> rfl
@[simp] theorem pollButton_inputs (n : Nat) (s : State) : (pollButton n s).2.host.inputs = s.host.inputs := by unfold pollButton; dsimp only; split <;> rfl

@[simp] theorem padRead_cfg (s : State) : (padRead s).2.cfg = s.cfg := by unfold padRead; split <;> [skip; split] <;> simp
@[simp] theorem padRead_cpu (s : State) : (padRead s).2.cpu = s.cpu := by unfold padRead; split <;> [skip; split] <;> simp
@[simp] theorem padRead_ppu (s : State) : (padRead s).2.ppu = s.ppu := by unfold padRead; split <;> [skip; split] <;> simp
@[simp] theorem padRead_nmiLine (s : State) : (padRead s).2.nmiLine = s.nmiLine := by unfold padRead; split <;> [skip; split] <;> simp
@[simp] theorem padRead_wram (s : State) : (padRead s).2.wram = s.wram := by unfold padRead; split <;> [skip; split] <;> simp
@[simp] theorem padRead_prg (s : State) : (padRead s).2.prg = s.prg := by unfold padRead; split <;> [skip; split] <;> simp
@[simp] theorem padRead_dotsTotal (s : State) : (padRead s).2.dotsTotal = s.dotsTotal := by unfold padRead; split <;> [skip; split] <;> simp
@[simp] theorem padRead_wq (s : State) : (padRead s).2.wq = s.wq := by unfold padRead; split <;> [skip; split] <;> simp
@[simp] theorem padRead_run (s : State) : (padRead s).2.host.run = s.host.run := by unfold padRead; split <;> [skip; split] <;> simp
@[simp] theorem padRead_irqLine (s : State) : (padRead s).2.host.irqLine = s.host.irqLine := by unfold padRead; split <;> [skip; split] <;> simp
@[simp] theorem padRead_sinkReady (s : State) : (padRead s).2.host.sinkReady = s.host.sinkReady := by unfold padRead; split <;> [skip; split] <;> simp
@[simp] theorem padRead_inputs (s : State) : (padRead s).2.host.inputs = s.host.inputs := by unfold padRead; split <;> [skip; split] <;> simp

theorem padRead_index {s : State} (h : s.pad.index ≤ 8) : (padRead s).2.pad.index ≤ 8 := by
  unfold padRead; split <;> [skip; split] <;> simp <;> omega

@[simp] theorem padWrite_cfg (b : Byte) (s : State) : (padWrite b s).cfg = s.cfg := rfl
@[simp] theorem padWrite_cpu (b : Byte) (s : State) : (padWrite b s).cpu = s.cpu := rfl
@[simp] theorem padWrite_ppu (b : Byte) (s : State) : (padWrite b s).ppu = s.ppu := rfl
@[simp] theorem padWrite_nmiLine (b : Byte) (s : State) : (padWrite b s).nmiLine = s.nmiLine := rfl
@[simp] theorem padWrite_wram (b : Byte) (s : State) : (padWrite b s).wram = s.wram := rfl
@[simp] theorem padWrite_prg (b : Byte) (s : State) : (padWrite b s).prg = s.prg := rfl
@[simp] theorem padWrite_dotsTotal (b : Byte) (s : State) : (padWrite b s).dotsTotal = s.dotsTotal := rfl
@[simp] theorem padWrite_wq (b : Byte) (s : State) : (padWrite b s).wq = s.wq := rfl
@[simp] theorem padWrite_host (b : Byte) (s : State) : (padWrite b s).host = s.host := rfl

theorem padWrite_index (b : Byte) {s : State} (h : s.pad.index ≤ 8) : (padWrite b s).pad.index ≤ 8 := by
  simp only [padWrite]; split <;> omega

/-! ## The PPU's bus and registers -/

@[simp] theorem ppuWrite_ctrl (m : Mirroring) (a : Word) (b : Byte) (q : Ppu) : (ppuWrite m a b q).ctrl = q.ctrl := by unfold ppuWrite; dsimp only; split <;> [skip; split] <;> rfl
@[simp] theorem ppuWrite_mask (m : Mirroring) (a : Word) (b : Byte) (q : Ppu) : (ppuWrite m a b q).mask = q.mask := by unfold ppuWrite; dsimp only; split <;> [skip; split] <;> rfl
@[simp] theorem ppuWrite_vblank (m : Mirroring) (a : Word) (b : Byte) (q : Ppu) : (ppuWrite m a b q).vblank = q.vblank := by unfold ppuWrite; dsimp only; split <;> [skip; split] <;> rfl
@[simp] theorem ppuWrite_s0hit (m : Mirroring) (a : Word) (b : Byte) (q : Ppu) : (ppuWrite m a b q).s0hit = q.s0hit := by unfold ppuWrite; dsimp only; split <;> [skip; split] <;> rfl
@[simp] theorem ppuWrite_oamAddr (m : Mirroring) (a : Word) (b : Byte) (q : Ppu) : (ppuWrite m a b q).oamAddr = q.oamAddr := by unfold ppuWrite; dsimp only; split <;> [skip; split] <;> rfl
@[simp] theorem ppuWrite_v (m : Mirroring) (a : Word) (b : Byte) (q : Ppu) : (ppuWrite m a b q).v = q.v := by unfold ppuWrite; dsimp only; split <;> [skip; split] <;> rfl
@[simp] theorem ppuWrite_t (m : Mirroring) (a : Word) (b : Byte) (q : Ppu) : (ppuWrite m a b q).t = q.t := by unfold ppuWrite; dsimp only; split <;> [skip; split] <;> rfl
@[simp] theorem ppuWrite_fineX (m : Mirroring) (a : Word) (b : Byte) (q : Ppu) : (ppuWrite m a b q).fineX = q.fineX := by unfold ppuWrite; dsimp only; split <;> [skip; split] <;> rfl
@[simp] theorem ppuWrite_w (m : Mirroring) (a : Word) (b : Byte) (q : Ppu) : (ppuWrite m a b q).w = q.w := by unfold ppuWrite; dsimp only; split <;> [skip; split] <;> rfl
@[simp] theorem ppuWrite_readBuf (m : Mirroring) (a : Word) (b : Byte) (q : Ppu) : (ppuWrite m a b q).readBuf = q.readBuf := by unfold ppuWrite; dsimp only; split <;> [skip; split] <;> rfl
@[simp] theorem ppuWrite_scanline (m : Mirroring) (a : Word) (b : Byte) (q : Ppu) : (ppuWrite m a b q).scanline = q.scanline := by unfold ppuWrite; dsimp only; split <;> [skip; split] <;> rfl
@[simp] theorem ppuWrite_dot (m : Mirroring) (a : Word) (b : Byte) (q : Ppu) : (ppuWrite m a b q).dot = q.dot := by unfold ppuWrite; dsimp only; split <;> [skip; split] <;> rfl
@[simp] theorem ppuWrite_frame (m : Mirroring) (a : Word) (b : Byte) (q : Ppu) : (ppuWrite m a b q).frame = q.frame := by unfold ppuWrite; dsimp only; split <;> [skip; split] <;> rfl
@[simp] theorem ppuWrite_bgLo (m : Mirroring) (a : Word) (b : Byte) (q : Ppu) : (ppuWrite m a b q).bgLo = q.bgLo := by unfold ppuWrite; dsimp only; split <;> [skip; split] <;> rfl
@[simp] theorem ppuWrite_bgHi (m : Mirroring) (a : Word) (b : Byte) (q : Ppu) : (ppuWrite m a b q).bgHi = q.bgHi := by unfold ppuWrite; dsimp only; split <;> [skip; split] <;> rfl
@[simp] theorem ppuWrite_bgAt0 (m : Mirroring) (a : Word) (b : Byte) (q : Ppu) : (ppuWrite m a b q).bgAt0 = q.bgAt0 := by unfold ppuWrite; dsimp only; split <;> [skip; split] <;> rfl
@[simp] theorem ppuWrite_bgAt1 (m : Mirroring) (a : Word) (b : Byte) (q : Ppu) : (ppuWrite m a b q).bgAt1 = q.bgAt1 := by unfold ppuWrite; dsimp only; split <;> [skip; split] <;> rfl
@[simp] theorem ppuWrite_ntByte (m : Mirroring) (a : Word) (b : Byte) (q : Ppu) : (ppuWrite m a b q).ntByte = q.ntByte := by unfold ppuWrite; dsimp only; split <;> [skip; split] <;> rfl
@[simp] theorem ppuWrite_atBits (m : Mirroring) (a : Word) (b : Byte) (q : Ppu) : (ppuWrite m a b q).atBits = q.atBits := by unfold ppuWrite; dsimp only; split <;> [skip; split] <;> rfl
@[simp] theorem ppuWrite_ptLo (m : Mirroring) (a : Word) (b : Byte) (q : Ppu) : (ppuWrite m a b q).ptLo = q.ptLo := by unfold ppuWrite; dsimp only; split <;> [skip; split] <;> rfl
@[simp] theorem ppuWrite_ptHi (m : Mirroring) (a : Word) (b : Byte) (q : Ppu) : (ppuWrite m a b q).ptHi = q.ptHi := by unfold ppuWrite; dsimp only; split <;> [skip; split] <;> rfl
@[simp] theorem ppuWrite_spr (m : Mirroring) (a : Word) (b : Byte) (q : Ppu) : (ppuWrite m a b q).spr = q.spr := by unfold ppuWrite; dsimp only; split <;> [skip; split] <;> rfl
@[simp] theorem ppuWrite_fetch (m : Mirroring) (a : Word) (b : Byte) (q : Ppu) : (ppuWrite m a b q).fetch = q.fetch := by unfold ppuWrite; dsimp only; split <;> [skip; split] <;> rfl
@[simp] theorem ppuWrite_oam2 (m : Mirroring) (a : Word) (b : Byte) (q : Ppu) : (ppuWrite m a b q).oam2 = q.oam2 := by unfold ppuWrite; dsimp only; split <;> [skip; split] <;> rfl
@[simp] theorem ppuWrite_oam2Count (m : Mirroring) (a : Word) (b : Byte) (q : Ppu) : (ppuWrite m a b q).oam2Count = q.oam2Count := by unfold ppuWrite; dsimp only; split <;> [skip; split] <;> rfl
@[simp] theorem ppuWrite_s0Next (m : Mirroring) (a : Word) (b : Byte) (q : Ppu) : (ppuWrite m a b q).s0Next = q.s0Next := by unfold ppuWrite; dsimp only; split <;> [skip; split] <;> rfl
@[simp] theorem ppuWrite_s0Cur (m : Mirroring) (a : Word) (b : Byte) (q : Ppu) : (ppuWrite m a b q).s0Cur = q.s0Cur := by unfold ppuWrite; dsimp only; split <;> [skip; split] <;> rfl
@[simp] theorem ppuWrite_oam (m : Mirroring) (a : Word) (b : Byte) (q : Ppu) : (ppuWrite m a b q).oam = q.oam := by unfold ppuWrite; dsimp only; split <;> [skip; split] <;> rfl

@[simp] theorem ppuRegRead_ctrl (m : Mirroring) (r : RegIndex) (q : Ppu) : (ppuRegRead m r q).2.ctrl = q.ctrl := by unfold ppuRegRead statusRead dataRead; dsimp only; split <;> [skip; split <;> [split; skip]] <;> rfl
@[simp] theorem ppuRegRead_mask (m : Mirroring) (r : RegIndex) (q : Ppu) : (ppuRegRead m r q).2.mask = q.mask := by unfold ppuRegRead statusRead dataRead; dsimp only; split <;> [skip; split <;> [split; skip]] <;> rfl
@[simp] theorem ppuRegRead_s0hit (m : Mirroring) (r : RegIndex) (q : Ppu) : (ppuRegRead m r q).2.s0hit = q.s0hit := by unfold ppuRegRead statusRead dataRead; dsimp only; split <;> [skip; split <;> [split; skip]] <;> rfl
@[simp] theorem ppuRegRead_oamAddr (m : Mirroring) (r : RegIndex) (q : Ppu) : (ppuRegRead m r q).2.oamAddr = q.oamAddr := by unfold ppuRegRead statusRead dataRead; dsimp only; split <;> [skip; split <;> [split; skip]] <;> rfl
@[simp] theorem ppuRegRead_t (m : Mirroring) (r : RegIndex) (q : Ppu) : (ppuRegRead m r q).2.t = q.t := by unfold ppuRegRead statusRead dataRead; dsimp only; split <;> [skip; split <;> [split; skip]] <;> rfl
@[simp] theorem ppuRegRead_fineX (m : Mirroring) (r : RegIndex) (q : Ppu) : (ppuRegRead m r q).2.fineX = q.fineX := by unfold ppuRegRead statusRead dataRead; dsimp only; split <;> [skip; split <;> [split; skip]] <;> rfl
@[simp] theorem ppuRegRead_scanline (m : Mirroring) (r : RegIndex) (q : Ppu) : (ppuRegRead m r q).2.scanline = q.scanline := by unfold ppuRegRead statusRead dataRead; dsimp only; split <;> [skip; split <;> [split; skip]] <;> rfl
@[simp] theorem ppuRegRead_dot (m : Mirroring) (r : RegIndex) (q : Ppu) : (ppuRegRead m r q).2.dot = q.dot := by unfold ppuRegRead statusRead dataRead; dsimp only; split <;> [skip; split <;> [split; skip]] <;> rfl
@[simp] theorem ppuRegRead_frame (m : Mirroring) (r : RegIndex) (q : Ppu) : (ppuRegRead m r q).2.frame = q.frame := by unfold ppuRegRead statusRead dataRead; dsimp only; split <;> [skip; split <;> [split; skip]] <;> rfl
@[simp] theorem ppuRegRead_bgLo (m : Mirroring) (r : RegIndex) (q : Ppu) : (ppuRegRead m r q).2.bgLo = q.bgLo := by unfold ppuRegRead statusRead dataRead; dsimp only; split <;> [skip; split <;> [split; skip]] <;> rfl
@[simp] theorem ppuRegRead_bgHi (m : Mirroring) (r : RegIndex) (q : Ppu) : (ppuRegRead m r q).2.bgHi = q.bgHi := by unfold ppuRegRead statusRead dataRead; dsimp only; split <;> [skip; split <;> [split; skip]] <;> rfl
@[simp] theorem ppuRegRead_bgAt0 (m : Mirroring) (r : RegIndex) (q : Ppu) : (ppuRegRead m r q).2.bgAt0 = q.bgAt0 := by unfold ppuRegRead statusRead dataRead; dsimp only; split <;> [skip; split <;> [split; skip]] <;> rfl
@[simp] theorem ppuRegRead_bgAt1 (m : Mirroring) (r : RegIndex) (q : Ppu) : (ppuRegRead m r q).2.bgAt1 = q.bgAt1 := by unfold ppuRegRead statusRead dataRead; dsimp only; split <;> [skip; split <;> [split; skip]] <;> rfl
@[simp] theorem ppuRegRead_ntByte (m : Mirroring) (r : RegIndex) (q : Ppu) : (ppuRegRead m r q).2.ntByte = q.ntByte := by unfold ppuRegRead statusRead dataRead; dsimp only; split <;> [skip; split <;> [split; skip]] <;> rfl
@[simp] theorem ppuRegRead_atBits (m : Mirroring) (r : RegIndex) (q : Ppu) : (ppuRegRead m r q).2.atBits = q.atBits := by unfold ppuRegRead statusRead dataRead; dsimp only; split <;> [skip; split <;> [split; skip]] <;> rfl
@[simp] theorem ppuRegRead_ptLo (m : Mirroring) (r : RegIndex) (q : Ppu) : (ppuRegRead m r q).2.ptLo = q.ptLo := by unfold ppuRegRead statusRead dataRead; dsimp only; split <;> [skip; split <;> [split; skip]] <;> rfl
@[simp] theorem ppuRegRead_ptHi (m : Mirroring) (r : RegIndex) (q : Ppu) : (ppuRegRead m r q).2.ptHi = q.ptHi := by unfold ppuRegRead statusRead dataRead; dsimp only; split <;> [skip; split <;> [split; skip]] <;> rfl
@[simp] theorem ppuRegRead_spr (m : Mirroring) (r : RegIndex) (q : Ppu) : (ppuRegRead m r q).2.spr = q.spr := by unfold ppuRegRead statusRead dataRead; dsimp only; split <;> [skip; split <;> [split; skip]] <;> rfl
@[simp] theorem ppuRegRead_fetch (m : Mirroring) (r : RegIndex) (q : Ppu) : (ppuRegRead m r q).2.fetch = q.fetch := by unfold ppuRegRead statusRead dataRead; dsimp only; split <;> [skip; split <;> [split; skip]] <;> rfl
@[simp] theorem ppuRegRead_oam2 (m : Mirroring) (r : RegIndex) (q : Ppu) : (ppuRegRead m r q).2.oam2 = q.oam2 := by unfold ppuRegRead statusRead dataRead; dsimp only; split <;> [skip; split <;> [split; skip]] <;> rfl
@[simp] theorem ppuRegRead_oam2Count (m : Mirroring) (r : RegIndex) (q : Ppu) : (ppuRegRead m r q).2.oam2Count = q.oam2Count := by unfold ppuRegRead statusRead dataRead; dsimp only; split <;> [skip; split <;> [split; skip]] <;> rfl
@[simp] theorem ppuRegRead_s0Next (m : Mirroring) (r : RegIndex) (q : Ppu) : (ppuRegRead m r q).2.s0Next = q.s0Next := by unfold ppuRegRead statusRead dataRead; dsimp only; split <;> [skip; split <;> [split; skip]] <;> rfl
@[simp] theorem ppuRegRead_s0Cur (m : Mirroring) (r : RegIndex) (q : Ppu) : (ppuRegRead m r q).2.s0Cur = q.s0Cur := by unfold ppuRegRead statusRead dataRead; dsimp only; split <;> [skip; split <;> [split; skip]] <;> rfl
@[simp] theorem ppuRegRead_chr (m : Mirroring) (r : RegIndex) (q : Ppu) : (ppuRegRead m r q).2.chr = q.chr := by unfold ppuRegRead statusRead dataRead; dsimp only; split <;> [skip; split <;> [split; skip]] <;> rfl
@[simp] theorem ppuRegRead_ciram (m : Mirroring) (r : RegIndex) (q : Ppu) : (ppuRegRead m r q).2.ciram = q.ciram := by unfold ppuRegRead statusRead dataRead; dsimp only; split <;> [skip; split <;> [split; skip]] <;> rfl
@[simp] theorem ppuRegRead_pal (m : Mirroring) (r : RegIndex) (q : Ppu) : (ppuRegRead m r q).2.pal = q.pal := by unfold ppuRegRead statusRead dataRead; dsimp only; split <;> [skip; split <;> [split; skip]] <;> rfl
@[simp] theorem ppuRegRead_oam (m : Mirroring) (r : RegIndex) (q : Ppu) : (ppuRegRead m r q).2.oam = q.oam := by unfold ppuRegRead statusRead dataRead; dsimp only; split <;> [skip; split <;> [split; skip]] <;> rfl

@[simp] theorem ppuRegWrite_vblank (m : Mirroring) (r : RegIndex) (b : Byte) (q : Ppu) : (ppuRegWrite m r b q).vblank = q.vblank := by unfold ppuRegWrite; (repeat' split) <;> simp [ctrlWrite, maskWrite, oamAddrWrite, oamDataWrite, scrollWrite, addrWrite, dataWrite, stepVram] <;> split <;> rfl
@[simp] theorem ppuRegWrite_s0hit (m : Mirroring) (r : RegIndex) (b : Byte) (q : Ppu) : (ppuRegWrite m r b q).s0hit = q.s0hit := by unfold ppuRegWrite; (repeat' split) <;> simp [ctrlWrite, maskWrite, oamAddrWrite, oamDataWrite, scrollWrite, addrWrite, dataWrite, stepVram] <;> split <;> rfl
@[simp] theorem ppuRegWrite_scanline (m : Mirroring) (r : RegIndex) (b : Byte) (q : Ppu) : (ppuRegWrite m r b q).scanline = q.scanline := by unfold ppuRegWrite; (repeat' split) <;> simp [ctrlWrite, maskWrite, oamAddrWrite, oamDataWrite, scrollWrite, addrWrite, dataWrite, stepVram] <;> split <;> rfl
@[simp] theorem ppuRegWrite_dot (m : Mirroring) (r : RegIndex) (b : Byte) (q : Ppu) : (ppuRegWrite m r b q).dot = q.dot := by unfold ppuRegWrite; (repeat' split) <;> simp [ctrlWrite, maskWrite, oamAddrWrite, oamDataWrite, scrollWrite, addrWrite, dataWrite, stepVram] <;> split <;> rfl
@[simp] theorem ppuRegWrite_frame (m : Mirroring) (r : RegIndex) (b : Byte) (q : Ppu) : (ppuRegWrite m r b q).frame = q.frame := by unfold ppuRegWrite; (repeat' split) <;> simp [ctrlWrite, maskWrite, oamAddrWrite, oamDataWrite, scrollWrite, addrWrite, dataWrite, stepVram] <;> split <;> rfl
@[simp] theorem ppuRegWrite_bgLo (m : Mirroring) (r : RegIndex) (b : Byte) (q : Ppu) : (ppuRegWrite m r b q).bgLo = q.bgLo := by unfold ppuRegWrite; (repeat' split) <;> simp [ctrlWrite, maskWrite, oamAddrWrite, oamDataWrite, scrollWrite, addrWrite, dataWrite, stepVram] <;> split <;> rfl
@[simp] theorem ppuRegWrite_bgHi (m : Mirroring) (r : RegIndex) (b : Byte) (q : Ppu) : (ppuRegWrite m r b q).bgHi = q.bgHi := by unfold ppuRegWrite; (repeat' split) <;> simp [ctrlWrite, maskWrite, oamAddrWrite, oamDataWrite, scrollWrite, addrWrite, dataWrite, stepVram] <;> split <;> rfl
@[simp] theorem ppuRegWrite_bgAt0 (m : Mirroring) (r : RegIndex) (b : Byte) (q : Ppu) : (ppuRegWrite m r b q).bgAt0 = q.bgAt0 := by unfold ppuRegWrite; (repeat' split) <;> simp [ctrlWrite, maskWrite, oamAddrWrite, oamDataWrite, scrollWrite, addrWrite, dataWrite, stepVram] <;> split <;> rfl
@[simp] theorem ppuRegWrite_bgAt1 (m : Mirroring) (r : RegIndex) (b : Byte) (q : Ppu) : (ppuRegWrite m r b q).bgAt1 = q.bgAt1 := by unfold ppuRegWrite; (repeat' split) <;> simp [ctrlWrite, maskWrite, oamAddrWrite, oamDataWrite, scrollWrite, addrWrite, dataWrite, stepVram] <;> split <;> rfl
@[simp] theorem ppuRegWrite_ntByte (m : Mirroring) (r : RegIndex) (b : Byte) (q : Ppu) : (ppuRegWrite m r b q).ntByte = q.ntByte := by unfold ppuRegWrite; (repeat' split) <;> simp [ctrlWrite, maskWrite, oamAddrWrite, oamDataWrite, scrollWrite, addrWrite, dataWrite, stepVram] <;> split <;> rfl
@[simp] theorem ppuRegWrite_atBits (m : Mirroring) (r : RegIndex) (b : Byte) (q : Ppu) : (ppuRegWrite m r b q).atBits = q.atBits := by unfold ppuRegWrite; (repeat' split) <;> simp [ctrlWrite, maskWrite, oamAddrWrite, oamDataWrite, scrollWrite, addrWrite, dataWrite, stepVram] <;> split <;> rfl
@[simp] theorem ppuRegWrite_ptLo (m : Mirroring) (r : RegIndex) (b : Byte) (q : Ppu) : (ppuRegWrite m r b q).ptLo = q.ptLo := by unfold ppuRegWrite; (repeat' split) <;> simp [ctrlWrite, maskWrite, oamAddrWrite, oamDataWrite, scrollWrite, addrWrite, dataWrite, stepVram] <;> split <;> rfl
@[simp] theorem ppuRegWrite_ptHi (m : Mirroring) (r : RegIndex) (b : Byte) (q : Ppu) : (ppuRegWrite m r b q).ptHi = q.ptHi := by unfold ppuRegWrite; (repeat' split) <;> simp [ctrlWrite, maskWrite, oamAddrWrite, oamDataWrite, scrollWrite, addrWrite, dataWrite, stepVram] <;> split <;> rfl
@[simp] theorem ppuRegWrite_spr (m : Mirroring) (r : RegIndex) (b : Byte) (q : Ppu) : (ppuRegWrite m r b q).spr = q.spr := by unfold ppuRegWrite; (repeat' split) <;> simp [ctrlWrite, maskWrite, oamAddrWrite, oamDataWrite, scrollWrite, addrWrite, dataWrite, stepVram] <;> split <;> rfl
@[simp] theorem ppuRegWrite_fetch (m : Mirroring) (r : RegIndex) (b : Byte) (q : Ppu) : (ppuRegWrite m r b q).fetch = q.fetch := by unfold ppuRegWrite; (repeat' split) <;> simp [ctrlWrite, maskWrite, oamAddrWrite, oamDataWrite, scrollWrite, addrWrite, dataWrite, stepVram] <;> split <;> rfl
@[simp] theorem ppuRegWrite_oam2 (m : Mirroring) (r : RegIndex) (b : Byte) (q : Ppu) : (ppuRegWrite m r b q).oam2 = q.oam2 := by unfold ppuRegWrite; (repeat' split) <;> simp [ctrlWrite, maskWrite, oamAddrWrite, oamDataWrite, scrollWrite, addrWrite, dataWrite, stepVram] <;> split <;> rfl
@[simp] theorem ppuRegWrite_oam2Count (m : Mirroring) (r : RegIndex) (b : Byte) (q : Ppu) : (ppuRegWrite m r b q).oam2Count = q.oam2Count := by unfold ppuRegWrite; (repeat' split) <;> simp [ctrlWrite, maskWrite, oamAddrWrite, oamDataWrite, scrollWrite, addrWrite, dataWrite, stepVram] <;> split <;> rfl
@[simp] theorem ppuRegWrite_s0Next (m : Mirroring) (r : RegIndex) (b : Byte) (q : Ppu) : (ppuRegWrite m r b q).s0Next = q.s0Next := by unfold ppuRegWrite; (repeat' split) <;> simp [ctrlWrite, maskWrite, oamAddrWrite, oamDataWrite, scrollWrite, addrWrite, dataWrite, stepVram] <;> split <;> rfl
@[simp] theorem ppuRegWrite_s0Cur (m : Mirroring) (r : RegIndex) (b : Byte) (q : Ppu) : (ppuRegWrite m r b q).s0Cur = q.s0Cur := by unfold ppuRegWrite; (repeat' split) <;> simp [ctrlWrite, maskWrite, oamAddrWrite, oamDataWrite, scrollWrite, addrWrite, dataWrite, stepVram] <;> split <;> rfl
@[simp] theorem ppuRegWrite_readBuf (m : Mirroring) (r : RegIndex) (b : Byte) (q : Ppu) : (ppuRegWrite m r b q).readBuf = q.readBuf := by unfold ppuRegWrite; (repeat' split) <;> simp [ctrlWrite, maskWrite, oamAddrWrite, oamDataWrite, scrollWrite, addrWrite, dataWrite, stepVram] <;> split <;> rfl

/-- A write of the PPU bus keeps its memories legal. -/
theorem ppuWrite_ok (m : Mirroring) (a : Word) (b : Byte) {q : Ppu} (hc : Memory.ok chrSize q.chr = true)
    (hn : Memory.ok ciramSize q.ciram = true) (hp : Memory.ok palSize q.pal = true) :
    Memory.ok chrSize (ppuWrite m a b q).chr = true ∧ Memory.ok ciramSize (ppuWrite m a b q).ciram = true ∧
      Memory.ok palSize (ppuWrite m a b q).pal = true := by
  unfold ppuWrite
  dsimp only
  split
  · rename_i h
    refine ⟨Memory.ok_write _ hc ?_, hn, hp⟩
    simp only [word_le_iff, BitVec.reduceToNat] at h
    simp only [chrSize]; omega
  · split
    · exact ⟨hc, Memory.ok_write _ hn (ntIndex_lt _ _), hp⟩
    · exact ⟨hc, hn, Memory.ok_write _ hp (palIndex_lt _)⟩

/-- A register write keeps the PPU's memories legal. -/
theorem ppuRegWrite_ok (m : Mirroring) (r : RegIndex) (b : Byte) {q : Ppu} (hc : Memory.ok chrSize q.chr = true)
    (hn : Memory.ok ciramSize q.ciram = true) (hp : Memory.ok palSize q.pal = true) (ho : Memory.ok oamSize q.oam = true) :
    Memory.ok chrSize (ppuRegWrite m r b q).chr = true ∧ Memory.ok ciramSize (ppuRegWrite m r b q).ciram = true ∧
      Memory.ok palSize (ppuRegWrite m r b q).pal = true ∧ Memory.ok oamSize (ppuRegWrite m r b q).oam = true := by
  have hw := ppuWrite_ok m (vramWord q.v) b hc hn hp
  have ho' : Memory.ok oamSize (q.oam.write q.oamAddr.toNat b) = true := Memory.ok_write _ ho (by simp only [oamSize]; omega)
  unfold ppuRegWrite
  repeat' split
  all_goals first
    | exact ⟨hc, hn, hp, ho⟩
    | exact ⟨hc, hn, hp, ho'⟩
    | exact ⟨hw.1, hw.2.1, hw.2.2, by simpa [dataWrite, stepVram] using ho⟩
    | (simp only [scrollWrite, addrWrite]; split <;> exact ⟨hc, hn, hp, ho⟩)

/-! ## A processor write to the register window -/

@[simp] theorem applyRegWrite_cfg (r : RegIndex) (b : Byte) (s : State) : (applyRegWrite r b s).cfg = s.cfg := rfl
@[simp] theorem applyRegWrite_cpu (r : RegIndex) (b : Byte) (s : State) : (applyRegWrite r b s).cpu = s.cpu := rfl
@[simp] theorem applyRegWrite_wram (r : RegIndex) (b : Byte) (s : State) : (applyRegWrite r b s).wram = s.wram := rfl
@[simp] theorem applyRegWrite_prg (r : RegIndex) (b : Byte) (s : State) : (applyRegWrite r b s).prg = s.prg := rfl
@[simp] theorem applyRegWrite_dotsTotal (r : RegIndex) (b : Byte) (s : State) : (applyRegWrite r b s).dotsTotal = s.dotsTotal := rfl
@[simp] theorem applyRegWrite_wq (r : RegIndex) (b : Byte) (s : State) : (applyRegWrite r b s).wq = s.wq := rfl
@[simp] theorem applyRegWrite_pad (r : RegIndex) (b : Byte) (s : State) : (applyRegWrite r b s).pad = s.pad := rfl
@[simp] theorem applyRegWrite_host (r : RegIndex) (b : Byte) (s : State) : (applyRegWrite r b s).host = s.host := rfl
@[simp] theorem applyRegWrite_ppu (r : RegIndex) (b : Byte) (s : State) : (applyRegWrite r b s).ppu = ppuRegWrite s.cfg.mirroring r b s.ppu := rfl
@[simp] theorem issueRegWrite_cfg (r : RegIndex) (b : Byte) (s : State) : (issueRegWrite r b s).cfg = s.cfg := by unfold issueRegWrite; split <;> rfl
@[simp] theorem issueRegWrite_cpu (r : RegIndex) (b : Byte) (s : State) : (issueRegWrite r b s).cpu = s.cpu := by unfold issueRegWrite; split <;> rfl
@[simp] theorem issueRegWrite_wram (r : RegIndex) (b : Byte) (s : State) : (issueRegWrite r b s).wram = s.wram := by unfold issueRegWrite; split <;> rfl
@[simp] theorem issueRegWrite_prg (r : RegIndex) (b : Byte) (s : State) : (issueRegWrite r b s).prg = s.prg := by unfold issueRegWrite; split <;> rfl
@[simp] theorem issueRegWrite_dotsTotal (r : RegIndex) (b : Byte) (s : State) : (issueRegWrite r b s).dotsTotal = s.dotsTotal := by unfold issueRegWrite; split <;> rfl
@[simp] theorem issueRegWrite_pad (r : RegIndex) (b : Byte) (s : State) : (issueRegWrite r b s).pad = s.pad := by unfold issueRegWrite; split <;> rfl
@[simp] theorem issueRegWrite_host (r : RegIndex) (b : Byte) (s : State) : (issueRegWrite r b s).host = s.host := by unfold issueRegWrite; split <;> rfl

/-! ## The processor bus -/

@[simp] theorem busRead_cfg (a : Word) (s : State) : (busRead a s).2.cfg = s.cfg := by unfold busRead; dsimp only; split <;> simp
@[simp] theorem busRead_cpu (a : Word) (s : State) : (busRead a s).2.cpu = s.cpu := by unfold busRead; dsimp only; split <;> simp
@[simp] theorem busRead_nmiLine (a : Word) (s : State) : (busRead a s).2.nmiLine = s.nmiLine := by unfold busRead; dsimp only; split <;> simp
@[simp] theorem busRead_wram (a : Word) (s : State) : (busRead a s).2.wram = s.wram := by unfold busRead; dsimp only; split <;> simp
@[simp] theorem busRead_prg (a : Word) (s : State) : (busRead a s).2.prg = s.prg := by unfold busRead; dsimp only; split <;> simp
@[simp] theorem busRead_dotsTotal (a : Word) (s : State) : (busRead a s).2.dotsTotal = s.dotsTotal := by unfold busRead; dsimp only; split <;> simp
@[simp] theorem busRead_wq (a : Word) (s : State) : (busRead a s).2.wq = s.wq := by unfold busRead; dsimp only; split <;> simp
@[simp] theorem busRead_run (a : Word) (s : State) : (busRead a s).2.host.run = s.host.run := by unfold busRead; dsimp only; split <;> simp
@[simp] theorem busRead_irqLine (a : Word) (s : State) : (busRead a s).2.host.irqLine = s.host.irqLine := by unfold busRead; dsimp only; split <;> simp
@[simp] theorem busRead_sinkReady (a : Word) (s : State) : (busRead a s).2.host.sinkReady = s.host.sinkReady := by unfold busRead; dsimp only; split <;> simp
@[simp] theorem busRead_inputs (a : Word) (s : State) : (busRead a s).2.host.inputs = s.host.inputs := by unfold busRead; dsimp only; split <;> simp
@[simp] theorem busRead_ppu_ctrl (a : Word) (s : State) : (busRead a s).2.ppu.ctrl = s.ppu.ctrl := by unfold busRead; dsimp only; split <;> simp
@[simp] theorem busRead_ppu_mask (a : Word) (s : State) : (busRead a s).2.ppu.mask = s.ppu.mask := by unfold busRead; dsimp only; split <;> simp
@[simp] theorem busRead_ppu_s0hit (a : Word) (s : State) : (busRead a s).2.ppu.s0hit = s.ppu.s0hit := by unfold busRead; dsimp only; split <;> simp
@[simp] theorem busRead_ppu_oamAddr (a : Word) (s : State) : (busRead a s).2.ppu.oamAddr = s.ppu.oamAddr := by unfold busRead; dsimp only; split <;> simp
@[simp] theorem busRead_ppu_t (a : Word) (s : State) : (busRead a s).2.ppu.t = s.ppu.t := by unfold busRead; dsimp only; split <;> simp
@[simp] theorem busRead_ppu_fineX (a : Word) (s : State) : (busRead a s).2.ppu.fineX = s.ppu.fineX := by unfold busRead; dsimp only; split <;> simp
@[simp] theorem busRead_ppu_scanline (a : Word) (s : State) : (busRead a s).2.ppu.scanline = s.ppu.scanline := by unfold busRead; dsimp only; split <;> simp
@[simp] theorem busRead_ppu_dot (a : Word) (s : State) : (busRead a s).2.ppu.dot = s.ppu.dot := by unfold busRead; dsimp only; split <;> simp
@[simp] theorem busRead_ppu_frame (a : Word) (s : State) : (busRead a s).2.ppu.frame = s.ppu.frame := by unfold busRead; dsimp only; split <;> simp
@[simp] theorem busRead_ppu_bgLo (a : Word) (s : State) : (busRead a s).2.ppu.bgLo = s.ppu.bgLo := by unfold busRead; dsimp only; split <;> simp
@[simp] theorem busRead_ppu_bgHi (a : Word) (s : State) : (busRead a s).2.ppu.bgHi = s.ppu.bgHi := by unfold busRead; dsimp only; split <;> simp
@[simp] theorem busRead_ppu_bgAt0 (a : Word) (s : State) : (busRead a s).2.ppu.bgAt0 = s.ppu.bgAt0 := by unfold busRead; dsimp only; split <;> simp
@[simp] theorem busRead_ppu_bgAt1 (a : Word) (s : State) : (busRead a s).2.ppu.bgAt1 = s.ppu.bgAt1 := by unfold busRead; dsimp only; split <;> simp
@[simp] theorem busRead_ppu_ntByte (a : Word) (s : State) : (busRead a s).2.ppu.ntByte = s.ppu.ntByte := by unfold busRead; dsimp only; split <;> simp
@[simp] theorem busRead_ppu_atBits (a : Word) (s : State) : (busRead a s).2.ppu.atBits = s.ppu.atBits := by unfold busRead; dsimp only; split <;> simp
@[simp] theorem busRead_ppu_ptLo (a : Word) (s : State) : (busRead a s).2.ppu.ptLo = s.ppu.ptLo := by unfold busRead; dsimp only; split <;> simp
@[simp] theorem busRead_ppu_ptHi (a : Word) (s : State) : (busRead a s).2.ppu.ptHi = s.ppu.ptHi := by unfold busRead; dsimp only; split <;> simp
@[simp] theorem busRead_ppu_spr (a : Word) (s : State) : (busRead a s).2.ppu.spr = s.ppu.spr := by unfold busRead; dsimp only; split <;> simp
@[simp] theorem busRead_ppu_fetch (a : Word) (s : State) : (busRead a s).2.ppu.fetch = s.ppu.fetch := by unfold busRead; dsimp only; split <;> simp
@[simp] theorem busRead_ppu_oam2 (a : Word) (s : State) : (busRead a s).2.ppu.oam2 = s.ppu.oam2 := by unfold busRead; dsimp only; split <;> simp
@[simp] theorem busRead_ppu_oam2Count (a : Word) (s : State) : (busRead a s).2.ppu.oam2Count = s.ppu.oam2Count := by unfold busRead; dsimp only; split <;> simp
@[simp] theorem busRead_ppu_s0Next (a : Word) (s : State) : (busRead a s).2.ppu.s0Next = s.ppu.s0Next := by unfold busRead; dsimp only; split <;> simp
@[simp] theorem busRead_ppu_s0Cur (a : Word) (s : State) : (busRead a s).2.ppu.s0Cur = s.ppu.s0Cur := by unfold busRead; dsimp only; split <;> simp
@[simp] theorem busRead_ppu_chr (a : Word) (s : State) : (busRead a s).2.ppu.chr = s.ppu.chr := by unfold busRead; dsimp only; split <;> simp
@[simp] theorem busRead_ppu_ciram (a : Word) (s : State) : (busRead a s).2.ppu.ciram = s.ppu.ciram := by unfold busRead; dsimp only; split <;> simp
@[simp] theorem busRead_ppu_pal (a : Word) (s : State) : (busRead a s).2.ppu.pal = s.ppu.pal := by unfold busRead; dsimp only; split <;> simp
@[simp] theorem busRead_ppu_oam (a : Word) (s : State) : (busRead a s).2.ppu.oam = s.ppu.oam := by unfold busRead; dsimp only; split <;> simp

theorem busRead_index (a : Word) {s : State} (h : s.pad.index ≤ 8) : (busRead a s).2.pad.index ≤ 8 := by
  unfold busRead; dsimp only; split <;> first | exact h | exact padRead_index h

@[simp] theorem busWrite_cfg (a : Word) (b : Byte) (s : State) : (busWrite a b s).cfg = s.cfg := by unfold busWrite; split <;> simp
@[simp] theorem busWrite_cpu (a : Word) (b : Byte) (s : State) : (busWrite a b s).cpu = s.cpu := by unfold busWrite; split <;> simp
@[simp] theorem busWrite_prg (a : Word) (b : Byte) (s : State) : (busWrite a b s).prg = s.prg := by unfold busWrite; split <;> simp
@[simp] theorem busWrite_dotsTotal (a : Word) (b : Byte) (s : State) : (busWrite a b s).dotsTotal = s.dotsTotal := by unfold busWrite; split <;> simp
@[simp] theorem busWrite_run (a : Word) (b : Byte) (s : State) : (busWrite a b s).host.run = s.host.run := by unfold busWrite; split <;> simp
@[simp] theorem busWrite_irqLine (a : Word) (b : Byte) (s : State) : (busWrite a b s).host.irqLine = s.host.irqLine := by unfold busWrite; split <;> simp
@[simp] theorem busWrite_sinkReady (a : Word) (b : Byte) (s : State) : (busWrite a b s).host.sinkReady = s.host.sinkReady := by unfold busWrite; split <;> simp
@[simp] theorem busWrite_inputs (a : Word) (b : Byte) (s : State) : (busWrite a b s).host.inputs = s.host.inputs := by unfold busWrite; split <;> simp
@[simp] theorem busWrite_ppu_vblank (a : Word) (b : Byte) (s : State) : (busWrite a b s).ppu.vblank = s.ppu.vblank := by unfold busWrite issueRegWrite; split <;> (try split) <;> simp
@[simp] theorem busWrite_ppu_s0hit (a : Word) (b : Byte) (s : State) : (busWrite a b s).ppu.s0hit = s.ppu.s0hit := by unfold busWrite issueRegWrite; split <;> (try split) <;> simp
@[simp] theorem busWrite_ppu_scanline (a : Word) (b : Byte) (s : State) : (busWrite a b s).ppu.scanline = s.ppu.scanline := by unfold busWrite issueRegWrite; split <;> (try split) <;> simp
@[simp] theorem busWrite_ppu_dot (a : Word) (b : Byte) (s : State) : (busWrite a b s).ppu.dot = s.ppu.dot := by unfold busWrite issueRegWrite; split <;> (try split) <;> simp
@[simp] theorem busWrite_ppu_frame (a : Word) (b : Byte) (s : State) : (busWrite a b s).ppu.frame = s.ppu.frame := by unfold busWrite issueRegWrite; split <;> (try split) <;> simp
@[simp] theorem busWrite_ppu_spr (a : Word) (b : Byte) (s : State) : (busWrite a b s).ppu.spr = s.ppu.spr := by unfold busWrite issueRegWrite; split <;> (try split) <;> simp
@[simp] theorem busWrite_ppu_oam2 (a : Word) (b : Byte) (s : State) : (busWrite a b s).ppu.oam2 = s.ppu.oam2 := by unfold busWrite issueRegWrite; split <;> (try split) <;> simp
@[simp] theorem busWrite_ppu_oam2Count (a : Word) (b : Byte) (s : State) : (busWrite a b s).ppu.oam2Count = s.ppu.oam2Count := by unfold busWrite issueRegWrite; split <;> (try split) <;> simp

theorem busWrite_index (a : Word) (b : Byte) {s : State} (h : s.pad.index ≤ 8) : (busWrite a b s).pad.index ≤ 8 := by
  unfold busWrite; split <;> first | exact h | exact padWrite_index b h | (simp; exact h)

/-- Where a bus write does not go to work RAM, work RAM is as before. -/
theorem busWrite_wram (a : Word) (b : Byte) (s : State) :
    (busWrite a b s).wram = if deviceOf s.cfg a = .wram then s.wram.write (wramIndex a) b else s.wram := by
  unfold busWrite; split <;> simp_all

theorem busWrite_wram_ok (a : Word) (b : Byte) {s : State} (h : Memory.ok wramSize s.wram = true) :
    Memory.ok wramSize (busWrite a b s).wram = true := by
  rw [busWrite_wram]; split
  · exact Memory.ok_write _ h (wramIndex_lt a)
  · exact h

theorem busWrite_ppu_ok (a : Word) (b : Byte) {s : State} (hc : Memory.ok chrSize s.ppu.chr = true)
    (hn : Memory.ok ciramSize s.ppu.ciram = true) (hp : Memory.ok palSize s.ppu.pal = true) (ho : Memory.ok oamSize s.ppu.oam = true) :
    Memory.ok chrSize (busWrite a b s).ppu.chr = true ∧ Memory.ok ciramSize (busWrite a b s).ppu.ciram = true ∧
      Memory.ok palSize (busWrite a b s).ppu.pal = true ∧ Memory.ok oamSize (busWrite a b s).ppu.oam = true := by
  unfold busWrite issueRegWrite
  split <;> first | exact ⟨hc, hn, hp, ho⟩ | (split <;> first | exact ⟨hc, hn, hp, ho⟩ | exact ppuRegWrite_ok _ _ _ hc hn hp ho)

/-- The delayed-write queue after a bus write: as before, or with one entry more, `WRITE_DELAY_DOTS` ahead. -/
theorem busWrite_wq (a : Word) (b : Byte) (s : State) :
    (busWrite a b s).wq = s.wq ∨ (busWrite a b s).wq = s.wq ++ [⟨s.dotsTotal + s.cfg.writeDelayDots, regIndex a, b⟩] := by
  unfold busWrite issueRegWrite
  split <;> first | exact .inl rfl | (split <;> first | exact .inr rfl | exact .inl rfl)

theorem busRead_of_wram {a : Word} (s : State) (h : a.toNat < 0x2000) : busRead a s = (s.wram.read (wramIndex a), s) := by
  unfold busRead; rw [deviceOf_wram h]

theorem busRead_of_rom {a : Word} (s : State) (h : 0x8000 ≤ a.toNat) : busRead a s = (s.prg.read (prgIndex s.cfg.prgBanks a), s) := by
  unfold busRead; rw [deviceOf_rom h]

/-- Where a byte of memory lies behind an address, a read answers it and changes nothing. -/
theorem busRead_peek {a : Word} (s : State) (h : deviceOf s.cfg a = .wram ∨ deviceOf s.cfg a = .rom) : busRead a s = (peek a s, s) := by
  unfold busRead peek; rcases h with h | h <;> rw [h]

/-- `peek` looks at work RAM, program ROM and the parameters only. -/
theorem peek_congr {a : Word} {s t : State} (hw : t.wram = s.wram) (hp : t.prg = s.prg) (hc : t.cfg = s.cfg) : peek a t = peek a s := by
  unfold peek; rw [hw, hp, hc]

@[simp] theorem peek_busRead (a b : Word) (s : State) : peek a (busRead b s).2 = peek a s :=
  peek_congr (by simp) (by simp) (by simp)

/-! ## The stack -/

theorem stackAddr_toNat (sp : Byte) : (stackAddr sp).toNat = 0x100 + sp.toNat := by
  have h := Nat.two_pow_add_eq_or_of_lt (b := sp.toNat) (i := 8) (by omega) 1
  simp only [stackAddr, BitVec.toNat_or, zext16_toNat]
  simpa using h.symm

@[simp] theorem wramIndex_stackAddr (sp : Byte) : wramIndex (stackAddr sp) = 0x100 + sp.toNat := by
  rw [wramIndex_eq_mod, stackAddr_toNat]; omega

@[simp] theorem deviceOf_stackAddr (cfg : Config) (sp : Byte) : deviceOf cfg (stackAddr sp) = .wram :=
  deviceOf_wram (by rw [stackAddr_toNat]; omega)

/-- R500: all that `Push` does. -/
theorem push_eq (b : Byte) (s : State) :
    push b s = { s with wram := s.wram.write (0x100 + s.cpu.s.toNat) b, cpu := { s.cpu with s := s.cpu.s - 1 } } := by
  simp [push, busWrite, State.mapCpu]

/-- R500: all that `Pull` does. -/
theorem pull_eq (s : State) :
    pull s = (s.wram.read (0x100 + (s.cpu.s + 1).toNat), { s with cpu := { s.cpu with s := s.cpu.s + 1 } }) := by
  simp [pull, busRead, State.mapCpu]

/-- R500: all that `Push16` does. -/
theorem push16_eq (w : Word) (s : State) :
    push16 w s =
      { s with
        wram := (s.wram.write (0x100 + s.cpu.s.toNat) (BitVec.ofNat 8 (w.toNat / 256))).write (0x100 + (s.cpu.s - 1).toNat)
          (BitVec.ofNat 8 w.toNat)
        cpu := { s.cpu with s := s.cpu.s - 2 } } := by
  simp only [push16, push_eq, lowByte_eq, highByte_eq, BitVec.sub_sub]
  rfl

theorem byte_add_add (a : Byte) (m n : Nat) : a + BitVec.ofNat 8 m + BitVec.ofNat 8 n = a + BitVec.ofNat 8 (m + n) := by
  rw [BitVec.add_assoc, BitVec.ofNat_add]

theorem byte_sub_sub (a : Byte) (m n : Nat) : a - BitVec.ofNat 8 m - BitVec.ofNat 8 n = a - BitVec.ofNat 8 (m + n) := by
  rw [BitVec.sub_sub, BitVec.ofNat_add]

/-- R500: all that `Pull16` does. -/
theorem pull16_eq (s : State) :
    pull16 s =
      (wordOf (s.wram.read (0x100 + (s.cpu.s + 1).toNat)) (s.wram.read (0x100 + (s.cpu.s + 2).toNat)),
        { s with cpu := { s.cpu with s := s.cpu.s + 2 } }) := by
  simp only [pull16, pull_eq, BitVec.add_assoc]
  rfl

/-! ## Taking an interrupt and returning from one -/

/-- A 16-bit read of program ROM changes nothing. -/
theorem busRead16_rom {a : Word} (s : State) (h : 0x8000 ≤ a.toNat) (h' : a.toNat < 0xFFFF) :
    busRead16 a s = (wordOf (peek a s) (peek (a + 1) s), s) := by
  have h1 : 0x8000 ≤ (a + 1).toNat := by rw [BitVec.toNat_add]; simp; omega
  simp only [busRead16, busRead_peek s (.inr (deviceOf_rom h)), busRead_peek s (.inr (deviceOf_rom h1))]

/-- R1210, R790: all that entering through a vector does. -/
theorem enterInterrupt_eq (ret : Word) (p : Byte) (vector : Word) (s : State) (h : 0x8000 ≤ vector.toNat) (h' : vector.toNat < 0xFFFF) :
    enterInterrupt ret p vector s =
      { s with
        wram :=
          ((s.wram.write (0x100 + s.cpu.s.toNat) (BitVec.ofNat 8 (ret.toNat / 256))).write (0x100 + (s.cpu.s - 1).toNat)
            (BitVec.ofNat 8 ret.toNat)).write (0x100 + (s.cpu.s - 2).toNat) p
        cpu :=
          { s.cpu with
            s := s.cpu.s - 3, p := setFlag .i true s.cpu.p, pc := wordOf (peek vector s) (peek (vector + 1) s) } } := by
  have h1 : 0x8000 ≤ (vector + 1).toNat := by rw [BitVec.toNat_add]; simp; omega
  simp only [enterInterrupt, push16_eq, push_eq, State.mapCpu, busRead16_rom _ h h', State.setPc, BitVec.sub_sub]
  simp only [peek, deviceOf_rom h, deviceOf_rom h1]
  rfl

/-- R1210: all that a service does. -/
theorem service_eq (k : IntKind) (s : State) :
    service k s =
      { s with
        nmiLine := if k = .nmi then false else s.nmiLine
        wram :=
          ((s.wram.write (0x100 + s.cpu.s.toNat) (BitVec.ofNat 8 (s.cpu.pc.toNat / 256))).write (0x100 + (s.cpu.s - 1).toNat)
            (BitVec.ofNat 8 s.cpu.pc.toNat)).write (0x100 + (s.cpu.s - 2).toNat) (pushedByService s.cpu.p)
        cpu :=
          { s.cpu with
            s := s.cpu.s - 3, p := setFlag .i true s.cpu.p, pc := wordOf (peek k.vector s) (peek (k.vector + 1) s),
            budget := s.cfg.interruptCost, resetPending := if k = .reset then false else s.cpu.resetPending } } := by
  cases k <;> (unfold service; rw [enterInterrupt_eq _ _ _ _ (by decide) (by decide)]; rfl)

/-- R791: all that the return does. -/
theorem returnFromInterrupt_eq (s : State) :
    returnFromInterrupt s =
      { s with
        cpu :=
          { s.cpu with
            s := s.cpu.s + 3, p := pulledStatus (s.wram.read (0x100 + (s.cpu.s + 1).toNat))
            pc := wordOf (s.wram.read (0x100 + (s.cpu.s + 2).toNat)) (s.wram.read (0x100 + (s.cpu.s + 3).toNat)) } } := by
  simp only [returnFromInterrupt, pull_eq, pull16_eq, State.mapCpu, State.setPc, BitVec.add_assoc]
  rfl

/-! ## Fetching -/

theorem fetchByte_eq {s : State} (h : deviceOf s.cfg s.cpu.pc = .wram ∨ deviceOf s.cfg s.cpu.pc = .rom) :
    fetchByte s = (peek s.cpu.pc s, s.setPc (s.cpu.pc + 1)) := by
  simp only [fetchByte, busRead_peek s h]

/-- A bus read neither uses PC nor writes it. -/
theorem busRead_setPc (a w : Word) (s : State) : busRead a (s.setPc w) = ((busRead a s).1, (busRead a s).2.setPc w) := by
  unfold busRead
  rw [State.setPc_cfg]
  split
  · rfl
  · rfl
  · unfold padRead
    rw [State.setPc_pad]
    split <;> [skip; split] <;> first | rfl | (unfold pollButton State.call; dsimp only [State.setPc_host]; split <;> rfl)
  · rfl
  · rfl

@[simp] theorem peek_setPc (a w : Word) (s : State) : peek a (s.setPc w) = peek a s := rfl

@[simp] theorem fetchByte_cfg (s : State) : (fetchByte s).2.cfg = s.cfg := by simp [fetchByte]
@[simp] theorem fetchInstr_cfg (s : State) : (fetchInstr s).2.cfg = s.cfg := by unfold fetchInstr; dsimp only; split <;> simp
@[simp] theorem fetchByte_nmiLine (s : State) : (fetchByte s).2.nmiLine = s.nmiLine := by simp [fetchByte]
@[simp] theorem fetchInstr_nmiLine (s : State) : (fetchInstr s).2.nmiLine = s.nmiLine := by unfold fetchInstr; dsimp only; split <;> simp
@[simp] theorem fetchByte_wram (s : State) : (fetchByte s).2.wram = s.wram := by simp [fetchByte]
@[simp] theorem fetchInstr_wram (s : State) : (fetchInstr s).2.wram = s.wram := by unfold fetchInstr; dsimp only; split <;> simp
@[simp] theorem fetchByte_prg (s : State) : (fetchByte s).2.prg = s.prg := by simp [fetchByte]
@[simp] theorem fetchInstr_prg (s : State) : (fetchInstr s).2.prg = s.prg := by unfold fetchInstr; dsimp only; split <;> simp
@[simp] theorem fetchByte_dotsTotal (s : State) : (fetchByte s).2.dotsTotal = s.dotsTotal := by simp [fetchByte]
@[simp] theorem fetchInstr_dotsTotal (s : State) : (fetchInstr s).2.dotsTotal = s.dotsTotal := by unfold fetchInstr; dsimp only; split <;> simp
@[simp] theorem fetchByte_wq (s : State) : (fetchByte s).2.wq = s.wq := by simp [fetchByte]
@[simp] theorem fetchInstr_wq (s : State) : (fetchInstr s).2.wq = s.wq := by unfold fetchInstr; dsimp only; split <;> simp
@[simp] theorem fetchByte_run (s : State) : (fetchByte s).2.host.run = s.host.run := by simp [fetchByte]
@[simp] theorem fetchInstr_run (s : State) : (fetchInstr s).2.host.run = s.host.run := by unfold fetchInstr; dsimp only; split <;> simp
@[simp] theorem fetchByte_irqLine (s : State) : (fetchByte s).2.host.irqLine = s.host.irqLine := by simp [fetchByte]
@[simp] theorem fetchInstr_irqLine (s : State) : (fetchInstr s).2.host.irqLine = s.host.irqLine := by unfold fetchInstr; dsimp only; split <;> simp
@[simp] theorem fetchByte_sinkReady (s : State) : (fetchByte s).2.host.sinkReady = s.host.sinkReady := by simp [fetchByte]
@[simp] theorem fetchInstr_sinkReady (s : State) : (fetchInstr s).2.host.sinkReady = s.host.sinkReady := by unfold fetchInstr; dsimp only; split <;> simp
@[simp] theorem fetchByte_inputs (s : State) : (fetchByte s).2.host.inputs = s.host.inputs := by simp [fetchByte]
@[simp] theorem fetchInstr_inputs (s : State) : (fetchInstr s).2.host.inputs = s.host.inputs := by unfold fetchInstr; dsimp only; split <;> simp
@[simp] theorem fetchByte_a (s : State) : (fetchByte s).2.cpu.a = s.cpu.a := by simp [fetchByte]
@[simp] theorem fetchInstr_a (s : State) : (fetchInstr s).2.cpu.a = s.cpu.a := by unfold fetchInstr; dsimp only; split <;> simp
@[simp] theorem fetchByte_x (s : State) : (fetchByte s).2.cpu.x = s.cpu.x := by simp [fetchByte]
@[simp] theorem fetchInstr_x (s : State) : (fetchInstr s).2.cpu.x = s.cpu.x := by unfold fetchInstr; dsimp only; split <;> simp
@[simp] theorem fetchByte_y (s : State) : (fetchByte s).2.cpu.y = s.cpu.y := by simp [fetchByte]
@[simp] theorem fetchInstr_y (s : State) : (fetchInstr s).2.cpu.y = s.cpu.y := by unfold fetchInstr; dsimp only; split <;> simp
@[simp] theorem fetchByte_s (s : State) : (fetchByte s).2.cpu.s = s.cpu.s := by simp [fetchByte]
@[simp] theorem fetchInstr_s (s : State) : (fetchInstr s).2.cpu.s = s.cpu.s := by unfold fetchInstr; dsimp only; split <;> simp
@[simp] theorem fetchByte_p (s : State) : (fetchByte s).2.cpu.p = s.cpu.p := by simp [fetchByte]
@[simp] theorem fetchInstr_p (s : State) : (fetchInstr s).2.cpu.p = s.cpu.p := by unfold fetchInstr; dsimp only; split <;> simp
@[simp] theorem fetchByte_budget (s : State) : (fetchByte s).2.cpu.budget = s.cpu.budget := by simp [fetchByte]
@[simp] theorem fetchInstr_budget (s : State) : (fetchInstr s).2.cpu.budget = s.cpu.budget := by unfold fetchInstr; dsimp only; split <;> simp
@[simp] theorem fetchByte_fault (s : State) : (fetchByte s).2.cpu.fault = s.cpu.fault := by simp [fetchByte]
@[simp] theorem fetchInstr_fault (s : State) : (fetchInstr s).2.cpu.fault = s.cpu.fault := by unfold fetchInstr; dsimp only; split <;> simp
@[simp] theorem fetchByte_resetPending (s : State) : (fetchByte s).2.cpu.resetPending = s.cpu.resetPending := by simp [fetchByte]
@[simp] theorem fetchInstr_resetPending (s : State) : (fetchInstr s).2.cpu.resetPending = s.cpu.resetPending := by unfold fetchInstr; dsimp only; split <;> simp

end Sys2Proof.Machine
end

