-- ==== Sys2Proof/Laws/Operands.lean ====
section
/-! SUPPORT. Laws/Operands.lean: what resolving and loading an operand can do, and each instruction as one of the shared shapes. -/

namespace Sys2Proof.Machine

/-! ## What resolving leaves alone -/

@[simp] theorem resolve_cfg (m : Mode) (s : State) : (resolve m s).st.cfg = s.cfg := by cases m <;> simp [resolve, zeroPagePointer, indirectTarget]
@[simp] theorem load_cfg (op : Operand) (s : State) : (load op s).2.cfg = s.cfg := by cases op <;> simp [load]
@[simp] theorem resolve_cpu (m : Mode) (s : State) : (resolve m s).st.cpu = s.cpu := by cases m <;> simp [resolve, zeroPagePointer, indirectTarget]
@[simp] theorem load_cpu (op : Operand) (s : State) : (load op s).2.cpu = s.cpu := by cases op <;> simp [load]
@[simp] theorem resolve_nmiLine (m : Mode) (s : State) : (resolve m s).st.nmiLine = s.nmiLine := by cases m <;> simp [resolve, zeroPagePointer, indirectTarget]
@[simp] theorem load_nmiLine (op : Operand) (s : State) : (load op s).2.nmiLine = s.nmiLine := by cases op <;> simp [load]
@[simp] theorem resolve_wram (m : Mode) (s : State) : (resolve m s).st.wram = s.wram := by cases m <;> simp [resolve, zeroPagePointer, indirectTarget]
@[simp] theorem load_wram (op : Operand) (s : State) : (load op s).2.wram = s.wram := by cases op <;> simp [load]
@[simp] theorem resolve_prg (m : Mode) (s : State) : (resolve m s).st.prg = s.prg := by cases m <;> simp [resolve, zeroPagePointer, indirectTarget]
@[simp] theorem load_prg (op : Operand) (s : State) : (load op s).2.prg = s.prg := by cases op <;> simp [load]
@[simp] theorem resolve_dotsTotal (m : Mode) (s : State) : (resolve m s).st.dotsTotal = s.dotsTotal := by cases m <;> simp [resolve, zeroPagePointer, indirectTarget]
@[simp] theorem load_dotsTotal (op : Operand) (s : State) : (load op s).2.dotsTotal = s.dotsTotal := by cases op <;> simp [load]
@[simp] theorem resolve_wq (m : Mode) (s : State) : (resolve m s).st.wq = s.wq := by cases m <;> simp [resolve, zeroPagePointer, indirectTarget]
@[simp] theorem load_wq (op : Operand) (s : State) : (load op s).2.wq = s.wq := by cases op <;> simp [load]
@[simp] theorem resolve_host_run (m : Mode) (s : State) : (resolve m s).st.host.run = s.host.run := by cases m <;> simp [resolve, zeroPagePointer, indirectTarget]
@[simp] theorem load_host_run (op : Operand) (s : State) : (load op s).2.host.run = s.host.run := by cases op <;> simp [load]
@[simp] theorem resolve_host_irqLine (m : Mode) (s : State) : (resolve m s).st.host.irqLine = s.host.irqLine := by cases m <;> simp [resolve, zeroPagePointer, indirectTarget]
@[simp] theorem load_host_irqLine (op : Operand) (s : State) : (load op s).2.host.irqLine = s.host.irqLine := by cases op <;> simp [load]
@[simp] theorem resolve_host_sinkReady (m : Mode) (s : State) : (resolve m s).st.host.sinkReady = s.host.sinkReady := by cases m <;> simp [resolve, zeroPagePointer, indirectTarget]
@[simp] theorem load_host_sinkReady (op : Operand) (s : State) : (load op s).2.host.sinkReady = s.host.sinkReady := by cases op <;> simp [load]
@[simp] theorem resolve_host_inputs (m : Mode) (s : State) : (resolve m s).st.host.inputs = s.host.inputs := by cases m <;> simp [resolve, zeroPagePointer, indirectTarget]
@[simp] theorem load_host_inputs (op : Operand) (s : State) : (load op s).2.host.inputs = s.host.inputs := by cases op <;> simp [load]
@[simp] theorem resolve_ppu_ctrl (m : Mode) (s : State) : (resolve m s).st.ppu.ctrl = s.ppu.ctrl := by cases m <;> simp [resolve, zeroPagePointer, indirectTarget]
@[simp] theorem load_ppu_ctrl (op : Operand) (s : State) : (load op s).2.ppu.ctrl = s.ppu.ctrl := by cases op <;> simp [load]
@[simp] theorem resolve_ppu_mask (m : Mode) (s : State) : (resolve m s).st.ppu.mask = s.ppu.mask := by cases m <;> simp [resolve, zeroPagePointer, indirectTarget]
@[simp] theorem load_ppu_mask (op : Operand) (s : State) : (load op s).2.ppu.mask = s.ppu.mask := by cases op <;> simp [load]
@[simp] theorem resolve_ppu_s0hit (m : Mode) (s : State) : (resolve m s).st.ppu.s0hit = s.ppu.s0hit := by cases m <;> simp [resolve, zeroPagePointer, indirectTarget]
@[simp] theorem load_ppu_s0hit (op : Operand) (s : State) : (load op s).2.ppu.s0hit = s.ppu.s0hit := by cases op <;> simp [load]
@[simp] theorem resolve_ppu_oamAddr (m : Mode) (s : State) : (resolve m s).st.ppu.oamAddr = s.ppu.oamAddr := by cases m <;> simp [resolve, zeroPagePointer, indirectTarget]
@[simp] theorem load_ppu_oamAddr (op : Operand) (s : State) : (load op s).2.ppu.oamAddr = s.ppu.oamAddr := by cases op <;> simp [load]
@[simp] theorem resolve_ppu_t (m : Mode) (s : State) : (resolve m s).st.ppu.t = s.ppu.t := by cases m <;> simp [resolve, zeroPagePointer, indirectTarget]
@[simp] theorem load_ppu_t (op : Operand) (s : State) : (load op s).2.ppu.t = s.ppu.t := by cases op <;> simp [load]
@[simp] theorem resolve_ppu_fineX (m : Mode) (s : State) : (resolve m s).st.ppu.fineX = s.ppu.fineX := by cases m <;> simp [resolve, zeroPagePointer, indirectTarget]
@[simp] theorem load_ppu_fineX (op : Operand) (s : State) : (load op s).2.ppu.fineX = s.ppu.fineX := by cases op <;> simp [load]
@[simp] theorem resolve_ppu_scanline (m : Mode) (s : State) : (resolve m s).st.ppu.scanline = s.ppu.scanline := by cases m <;> simp [resolve, zeroPagePointer, indirectTarget]
@[simp] theorem load_ppu_scanline (op : Operand) (s : State) : (load op s).2.ppu.scanline = s.ppu.scanline := by cases op <;> simp [load]
@[simp] theorem resolve_ppu_dot (m : Mode) (s : State) : (resolve m s).st.ppu.dot = s.ppu.dot := by cases m <;> simp [resolve, zeroPagePointer, indirectTarget]
@[simp] theorem load_ppu_dot (op : Operand) (s : State) : (load op s).2.ppu.dot = s.ppu.dot := by cases op <;> simp [load]
@[simp] theorem resolve_ppu_frame (m : Mode) (s : State) : (resolve m s).st.ppu.frame = s.ppu.frame := by cases m <;> simp [resolve, zeroPagePointer, indirectTarget]
@[simp] theorem load_ppu_frame (op : Operand) (s : State) : (load op s).2.ppu.frame = s.ppu.frame := by cases op <;> simp [load]
@[simp] theorem resolve_ppu_bgLo (m : Mode) (s : State) : (resolve m s).st.ppu.bgLo = s.ppu.bgLo := by cases m <;> simp [resolve, zeroPagePointer, indirectTarget]
@[simp] theorem load_ppu_bgLo (op : Operand) (s : State) : (load op s).2.ppu.bgLo = s.ppu.bgLo := by cases op <;> simp [load]
@[simp] theorem resolve_ppu_bgHi (m : Mode) (s : State) : (resolve m s).st.ppu.bgHi = s.ppu.bgHi := by cases m <;> simp [resolve, zeroPagePointer, indirectTarget]
@[simp] theorem load_ppu_bgHi (op : Operand) (s : State) : (load op s).2.ppu.bgHi = s.ppu.bgHi := by cases op <;> simp [load]
@[simp] theorem resolve_ppu_bgAt0 (m : Mode) (s : State) : (resolve m s).st.ppu.bgAt0 = s.ppu.bgAt0 := by cases m <;> simp [resolve, zeroPagePointer, indirectTarget]
@[simp] theorem load_ppu_bgAt0 (op : Operand) (s : State) : (load op s).2.ppu.bgAt0 = s.ppu.bgAt0 := by cases op <;> simp [load]
@[simp] theorem resolve_ppu_bgAt1 (m : Mode) (s : State) : (resolve m s).st.ppu.bgAt1 = s.ppu.bgAt1 := by cases m <;> simp [resolve, zeroPagePointer, indirectTarget]
@[simp] theorem load_ppu_bgAt1 (op : Operand) (s : State) : (load op s).2.ppu.bgAt1 = s.ppu.bgAt1 := by cases op <;> simp [load]
@[simp] theorem resolve_ppu_ntByte (m : Mode) (s : State) : (resolve m s).st.ppu.ntByte = s.ppu.ntByte := by cases m <;> simp [resolve, zeroPagePointer, indirectTarget]
@[simp] theorem load_ppu_ntByte (op : Operand) (s : State) : (load op s).2.ppu.ntByte = s.ppu.ntByte := by cases op <;> simp [load]
@[simp] theorem resolve_ppu_atBits (m : Mode) (s : State) : (resolve m s).st.ppu.atBits = s.ppu.atBits := by cases m <;> simp [resolve, zeroPagePointer, indirectTarget]
@[simp] theorem load_ppu_atBits (op : Operand) (s : State) : (load op s).2.ppu.atBits = s.ppu.atBits := by cases op <;> simp [load]
@[simp] theorem resolve_ppu_ptLo (m : Mode) (s : State) : (resolve m s).st.ppu.ptLo = s.ppu.ptLo := by cases m <;> simp [resolve, zeroPagePointer, indirectTarget]
@[simp] theorem load_ppu_ptLo (op : Operand) (s : State) : (load op s).2.ppu.ptLo = s.ppu.ptLo := by cases op <;> simp [load]
@[simp] theorem resolve_ppu_ptHi (m : Mode) (s : State) : (resolve m s).st.ppu.ptHi = s.ppu.ptHi := by cases m <;> simp [resolve, zeroPagePointer, indirectTarget]
@[simp] theorem load_ppu_ptHi (op : Operand) (s : State) : (load op s).2.ppu.ptHi = s.ppu.ptHi := by cases op <;> simp [load]
@[simp] theorem resolve_ppu_spr (m : Mode) (s : State) : (resolve m s).st.ppu.spr = s.ppu.spr := by cases m <;> simp [resolve, zeroPagePointer, indirectTarget]
@[simp] theorem load_ppu_spr (op : Operand) (s : State) : (load op s).2.ppu.spr = s.ppu.spr := by cases op <;> simp [load]
@[simp] theorem resolve_ppu_fetch (m : Mode) (s : State) : (resolve m s).st.ppu.fetch = s.ppu.fetch := by cases m <;> simp [resolve, zeroPagePointer, indirectTarget]
@[simp] theorem load_ppu_fetch (op : Operand) (s : State) : (load op s).2.ppu.fetch = s.ppu.fetch := by cases op <;> simp [load]
@[simp] theorem resolve_ppu_oam2 (m : Mode) (s : State) : (resolve m s).st.ppu.oam2 = s.ppu.oam2 := by cases m <;> simp [resolve, zeroPagePointer, indirectTarget]
@[simp] theorem load_ppu_oam2 (op : Operand) (s : State) : (load op s).2.ppu.oam2 = s.ppu.oam2 := by cases op <;> simp [load]
@[simp] theorem resolve_ppu_oam2Count (m : Mode) (s : State) : (resolve m s).st.ppu.oam2Count = s.ppu.oam2Count := by cases m <;> simp [resolve, zeroPagePointer, indirectTarget]
@[simp] theorem load_ppu_oam2Count (op : Operand) (s : State) : (load op s).2.ppu.oam2Count = s.ppu.oam2Count := by cases op <;> simp [load]
@[simp] theorem resolve_ppu_s0Next (m : Mode) (s : State) : (resolve m s).st.ppu.s0Next = s.ppu.s0Next := by cases m <;> simp [resolve, zeroPagePointer, indirectTarget]
@[simp] theorem load_ppu_s0Next (op : Operand) (s : State) : (load op s).2.ppu.s0Next = s.ppu.s0Next := by cases op <;> simp [load]
@[simp] theorem resolve_ppu_s0Cur (m : Mode) (s : State) : (resolve m s).st.ppu.s0Cur = s.ppu.s0Cur := by cases m <;> simp [resolve, zeroPagePointer, indirectTarget]
@[simp] theorem load_ppu_s0Cur (op : Operand) (s : State) : (load op s).2.ppu.s0Cur = s.ppu.s0Cur := by cases op <;> simp [load]
@[simp] theorem resolve_ppu_chr (m : Mode) (s : State) : (resolve m s).st.ppu.chr = s.ppu.chr := by cases m <;> simp [resolve, zeroPagePointer, indirectTarget]
@[simp] theorem load_ppu_chr (op : Operand) (s : State) : (load op s).2.ppu.chr = s.ppu.chr := by cases op <;> simp [load]
@[simp] theorem resolve_ppu_ciram (m : Mode) (s : State) : (resolve m s).st.ppu.ciram = s.ppu.ciram := by cases m <;> simp [resolve, zeroPagePointer, indirectTarget]
@[simp] theorem load_ppu_ciram (op : Operand) (s : State) : (load op s).2.ppu.ciram = s.ppu.ciram := by cases op <;> simp [load]
@[simp] theorem resolve_ppu_pal (m : Mode) (s : State) : (resolve m s).st.ppu.pal = s.ppu.pal := by cases m <;> simp [resolve, zeroPagePointer, indirectTarget]
@[simp] theorem load_ppu_pal (op : Operand) (s : State) : (load op s).2.ppu.pal = s.ppu.pal := by cases op <;> simp [load]
@[simp] theorem resolve_ppu_oam (m : Mode) (s : State) : (resolve m s).st.ppu.oam = s.ppu.oam := by cases m <;> simp [resolve, zeroPagePointer, indirectTarget]
@[simp] theorem load_ppu_oam (op : Operand) (s : State) : (load op s).2.ppu.oam = s.ppu.oam := by cases op <;> simp [load]

theorem load_index (op : Operand) {s : State} (h : s.pad.index ≤ 8) : (load op s).2.pad.index ≤ 8 := by
  cases op <;> first | exact h | exact busRead_index _ h

theorem resolve_index (m : Mode) {s : State} (h : s.pad.index ≤ 8) : (resolve m s).st.pad.index ≤ 8 := by
  cases m <;> first
    | exact h
    | exact busRead_index _ (busRead_index _ h)

/-- The byte of page zero a zero-page address reads. -/
theorem busRead_zext (p : Byte) (s : State) : busRead (zext16 p) s = (s.wram.read p.toNat, s) := by
  rw [busRead_of_wram s (by rw [zext16_toNat]; omega), wramIndex_eq_mod, zext16_toNat, Nat.mod_eq_of_lt (by omega)]

/-- R317, R318: a pointer of page zero is read with no other effect. -/
theorem zeroPagePointer_eq (p : Byte) (s : State) :
    zeroPagePointer p s = (wordOf (s.wram.read p.toNat) (s.wram.read (p + 1).toNat), s) := by
  simp only [zeroPagePointer, busRead_zext]

/-- Resolving any mode but JMP's pointer changes nothing. -/
theorem resolve_st (m : Mode) (s : State) (h : ∀ a, m ≠ .ind a) : (resolve m s).st = s := by
  cases m <;> first | rfl | exact absurd rfl (h _) | simp only [resolve, zeroPagePointer_eq]

/-! ## Addresses in numbers -/

theorem absIndexed_eq (w : Word) (i : Byte) : absIndexed w i = BitVec.ofNat 16 (w.toNat + i.toNat) := by
  apply BitVec.eq_of_toNat_eq; simp [absIndexed, zext16_toNat]

theorem zeroPageIndexed_eq (a i : Byte) : zeroPageIndexed a i = BitVec.ofNat 16 ((a.toNat + i.toNat) % 256) := by
  apply BitVec.eq_of_toNat_eq; simp [zeroPageIndexed, zext16_toNat, BitVec.toNat_add]; omega

theorem pageOf_toNat (x : Word) : (x &&& 0xFF00).toNat = 256 * (x.toNat / 256) := by
  have h : x &&& (0xFF00 : Word) = (x >>> 8) <<< 8 := by
    apply BitVec.eq_of_getLsbD_eq; intro i hi; interval_cases i <;> simp
  rw [h, BitVec.toNat_shiftLeft, BitVec.toNat_ushiftRight, Nat.shiftLeft_eq, Nat.shiftRight_eq_div_pow]
  omega

/-- R320: the page indicator, in numbers. -/
theorem pageCrossed_eq (x y : Word) : pageCrossed x y = decide (x.toNat / 256 ≠ y.toNat / 256) := by
  have h : (x &&& 0xFF00) = (y &&& 0xFF00) ↔ x.toNat / 256 = y.toNat / 256 := by
    rw [← BitVec.toNat_inj, pageOf_toNat, pageOf_toNat]; omega
  unfold pageCrossed
  rw [Bool.eq_iff_iff]
  simp only [bne_iff_ne, ne_eq, h, decide_eq_true_eq]

/-! ## Every instruction as one of the shared shapes -/

theorem exec_lda (i : Instr) (s : State) (h : i.mnemonic = .lda) : exec i s = readInstr i.opcode i.mode loadA s := by
  cases i <;> cases h <;> rfl

theorem exec_ldx (i : Instr) (s : State) (h : i.mnemonic = .ldx) : exec i s = readInstr i.opcode i.mode loadX s := by
  cases i <;> cases h <;> rfl

theorem exec_ldy (i : Instr) (s : State) (h : i.mnemonic = .ldy) : exec i s = readInstr i.opcode i.mode loadY s := by
  cases i <;> cases h <;> rfl

theorem exec_and (i : Instr) (s : State) (h : i.mnemonic = .and) : exec i s = readInstr i.opcode i.mode andA s := by
  cases i <;> cases h <;> rfl

theorem exec_eor (i : Instr) (s : State) (h : i.mnemonic = .eor) : exec i s = readInstr i.opcode i.mode eorA s := by
  cases i <;> cases h <;> rfl

theorem exec_ora (i : Instr) (s : State) (h : i.mnemonic = .ora) : exec i s = readInstr i.opcode i.mode oraA s := by
  cases i <;> cases h <;> rfl

theorem exec_bit (i : Instr) (s : State) (h : i.mnemonic = .bit) : exec i s = readInstr i.opcode i.mode bitTest s := by
  cases i <;> cases h <;> rfl

theorem exec_adc (i : Instr) (s : State) (h : i.mnemonic = .adc) : exec i s = readInstr i.opcode i.mode addA s := by
  cases i <;> cases h <;> rfl

theorem exec_sbc (i : Instr) (s : State) (h : i.mnemonic = .sbc) : exec i s = readInstr i.opcode i.mode subA s := by
  cases i <;> cases h <;> rfl

theorem exec_cmp (i : Instr) (s : State) (h : i.mnemonic = .cmp) : exec i s = readInstr i.opcode i.mode compareA s := by
  cases i <;> cases h <;> rfl

theorem exec_cpx (i : Instr) (s : State) (h : i.mnemonic = .cpx) : exec i s = readInstr i.opcode i.mode compareX s := by
  cases i <;> cases h <;> rfl

theorem exec_cpy (i : Instr) (s : State) (h : i.mnemonic = .cpy) : exec i s = readInstr i.opcode i.mode compareY s := by
  cases i <;> cases h <;> rfl

theorem exec_sta (i : Instr) (s : State) (h : i.mnemonic = .sta) : exec i s = storeInstr i.opcode i.mode (fun c => c.a) s := by
  cases i <;> cases h <;> rfl

theorem exec_stx (i : Instr) (s : State) (h : i.mnemonic = .stx) : exec i s = storeInstr i.opcode i.mode (fun c => c.x) s := by
  cases i <;> cases h <;> rfl

theorem exec_sty (i : Instr) (s : State) (h : i.mnemonic = .sty) : exec i s = storeInstr i.opcode i.mode (fun c => c.y) s := by
  cases i <;> cases h <;> rfl

theorem exec_inc (i : Instr) (s : State) (h : i.mnemonic = .inc) :
    exec i s = modifyInstr i.opcode i.mode (fun m _ => m + 1) (fun m => nzOf (m + 1)) s := by
  cases i <;> cases h <;> rfl

theorem exec_dec (i : Instr) (s : State) (h : i.mnemonic = .dec) :
    exec i s = modifyInstr i.opcode i.mode (fun m _ => m - 1) (fun m => nzOf (m - 1)) s := by
  cases i <;> cases h <;> rfl

theorem exec_asl (i : Instr) (s : State) (h : i.mnemonic = .asl) :
    exec i s = modifyInstr i.opcode i.mode aslValue (shiftFlags aslValue 7) s := by
  cases i <;> cases h <;> rfl

theorem exec_lsr (i : Instr) (s : State) (h : i.mnemonic = .lsr) :
    exec i s = modifyInstr i.opcode i.mode lsrValue (shiftFlags lsrValue 0) s := by
  cases i <;> cases h <;> rfl

theorem exec_rol (i : Instr) (s : State) (h : i.mnemonic = .rol) :
    exec i s = modifyInstr i.opcode i.mode rolValue (shiftFlags rolValue 7) s := by
  cases i <;> cases h <;> rfl

theorem exec_ror (i : Instr) (s : State) (h : i.mnemonic = .ror) :
    exec i s = modifyInstr i.opcode i.mode rorValue (shiftFlags rorValue 0) s := by
  cases i <;> cases h <;> rfl

theorem exec_isc (i : Instr) (s : State) (h : i.mnemonic = .isc) :
    exec i s = modifyInstr i.opcode i.mode iscValue iscEffect s := by
  cases i <;> cases h <;> rfl

/-- The modes of a mnemonic that stores to memory have an address, and none is JMP's pointer. -/
theorem storing_mode (i : Instr) (s : State)
    (h : i.mnemonic ∈ ([.sta, .stx, .sty, .inc, .dec, .asl, .lsr, .rol, .ror, .isc] : List Mnemonic)) :
    (i.mode = .acc ∨ ∃ ea, (resolve i.mode s).op = .mem ea) ∧ ∀ a, i.mode ≠ .ind a := by
  simp only [List.mem_cons, List.not_mem_nil, or_false] at h
  rcases h with h | h | h | h | h | h | h | h | h | h <;> cases i <;> cases h <;>
    first
    | exact ⟨.inr ⟨_, rfl⟩, fun _ h => nomatch h⟩
    | exact ⟨.inl rfl, fun _ h => nomatch h⟩

/-! ## Every instruction goes on -/

theorem exec_next (i : Instr) (s : State) : ∃ t, exec i s = .next t := by
  cases i <;> exact ⟨_, rfl⟩

end Sys2Proof.Machine
end

