-- ==== Sys2Proof/Laws/Exec.lean ====
section
/-! SUPPORT. Laws/Exec.lean: what every instruction leaves alone and what it keeps, once for each shared shape and then for all. -/

namespace Sys2Proof.Machine

/-- What holds between the state before an instruction that is no decode failure and the state after it. -/
structure ExecFrame (s t : State) : Prop where
  cfg : t.cfg = s.cfg
  prg : t.prg = s.prg
  dotsTotal : t.dotsTotal = s.dotsTotal
  run : t.host.run = s.host.run
  irqLine : t.host.irqLine = s.host.irqLine
  sinkReady : t.host.sinkReady = s.host.sinkReady
  inputs : t.host.inputs = s.host.inputs
  resetPending : t.cpu.resetPending = s.cpu.resetPending
  fault : t.cpu.fault = s.cpu.fault
  live : getFlag .b s.cpu.p = false → getFlag .u s.cpu.p = true → getFlag .b t.cpu.p = false ∧ getFlag .u t.cpu.p = true
  wq : t.wq = s.wq ∨ ∃ r b, t.wq = s.wq ++ [⟨s.dotsTotal + s.cfg.writeDelayDots, r, b⟩]
  wram : Memory.ok wramSize s.wram = true → Memory.ok wramSize t.wram = true
  ppu : s.ppu.Legal → t.ppu.Legal
  pad : s.pad.index ≤ 8 → t.pad.index ≤ 8

/-- An effect on the registers that keeps a live `P` live, `cpu_fault` and the reset request. -/
structure CpuFrame (f : Cpu → Cpu) : Prop where
  resetPending : ∀ c, (f c).resetPending = c.resetPending
  fault : ∀ c, (f c).fault = c.fault
  b : ∀ c, getFlag .b (f c).p = getFlag .b c.p
  u : ∀ c, getFlag .u (f c).p = getFlag .u c.p

/-- A bus access pattern: the processor is as before, and all the rest of `ExecFrame` holds. -/
structure BusFrame (s t : State) : Prop where
  cpu : t.cpu = s.cpu
  cfg : t.cfg = s.cfg
  prg : t.prg = s.prg
  dotsTotal : t.dotsTotal = s.dotsTotal
  run : t.host.run = s.host.run
  irqLine : t.host.irqLine = s.host.irqLine
  sinkReady : t.host.sinkReady = s.host.sinkReady
  inputs : t.host.inputs = s.host.inputs
  wq : t.wq = s.wq ∨ ∃ r b, t.wq = s.wq ++ [⟨s.dotsTotal + s.cfg.writeDelayDots, r, b⟩]
  wram : Memory.ok wramSize s.wram = true → Memory.ok wramSize t.wram = true
  ppu : s.ppu.Legal → t.ppu.Legal
  pad : s.pad.index ≤ 8 → t.pad.index ≤ 8

/-- A read keeps everything but what its side effects name. -/
theorem load_resolve_frame (op : Operand) (m : Mode) (s : State) : BusFrame s (load op (resolve m s).st).2 where
  cpu := by simp
  cfg := by simp
  prg := by simp
  dotsTotal := by simp
  run := by simp
  irqLine := by simp
  sinkReady := by simp
  inputs := by simp
  wq := .inl (by simp)
  wram := by simp
  ppu := by simp [Ppu.Legal]
  pad := fun h => load_index _ (resolve_index _ h)

theorem resolve_frame (m : Mode) (s : State) : BusFrame s (resolve m s).st where
  cpu := by simp
  cfg := by simp
  prg := by simp
  dotsTotal := by simp
  run := by simp
  irqLine := by simp
  sinkReady := by simp
  inputs := by simp
  wq := .inl (by simp)
  wram := by simp
  ppu := by simp [Ppu.Legal]
  pad := fun h => resolve_index _ h

/-- A write after accesses that queued nothing. -/
theorem busWrite_frame (a : Word) (b : Byte) {s t : State} (h : BusFrame s t) (hq : t.wq = s.wq) : BusFrame s (busWrite a b t) where
  cpu := by simp [h.cpu]
  cfg := by simp [h.cfg]
  prg := by simp [h.prg]
  dotsTotal := by simp [h.dotsTotal]
  run := by simp [h.run]
  irqLine := by simp [h.irqLine]
  sinkReady := by simp [h.sinkReady]
  inputs := by simp [h.inputs]
  wq := by
    rcases busWrite_wq a b t with hw | hw
    · exact .inl (hw.trans hq)
    · exact .inr ⟨_, _, by rw [hw, hq, h.dotsTotal, h.cfg]⟩
  wram := fun hw => busWrite_wram_ok a b (h.wram hw)
  ppu := fun hp => by
    obtain ⟨h1, h2, h3, h4, h5, h6, h7, h8, h9⟩ := h.ppu hp
    obtain ⟨k1, k2, k3, k4⟩ := busWrite_ppu_ok a b h6 h7 h8 h9
    simp only [Ppu.Legal, busWrite_ppu_scanline, busWrite_ppu_dot, busWrite_ppu_spr, busWrite_ppu_oam2Count, busWrite_ppu_oam2]
    exact ⟨h1, h2, h3, h4, h5, k1, k2, k3, k4⟩
  pad := fun hp => busWrite_index a b (h.pad hp)

/-- The accesses, then an effect on the registers and the cost. -/
theorem BusFrame.exec {s t : State} (h : BusFrame s t) {f : Cpu → Cpu} (hf : CpuFrame f) (n : Nat) :
    ExecFrame s ((t.mapCpu f).charge n) where
  cfg := h.cfg
  prg := h.prg
  dotsTotal := h.dotsTotal
  run := h.run
  irqLine := h.irqLine
  sinkReady := h.sinkReady
  inputs := h.inputs
  resetPending := by simp [hf.resetPending, h.cpu]
  fault := by simp [hf.fault, h.cpu]
  live := fun hb hu => by simp [hf.b, hf.u, h.cpu, hb, hu]
  wq := h.wq
  wram := h.wram
  ppu := h.ppu
  pad := h.pad

theorem BusFrame.refl (s : State) : BusFrame s s where
  cpu := rfl
  cfg := rfl
  prg := rfl
  dotsTotal := rfl
  run := rfl
  irqLine := rfl
  sinkReady := rfl
  inputs := rfl
  wq := .inl rfl
  wram := id
  ppu := id
  pad := id

/-- The shared shapes' frames: a reading instruction. -/
theorem readInstr_frame (opc : Byte) (m : Mode) {f : Byte → Cpu → Cpu} (hf : ∀ b, CpuFrame (f b)) {s t : State}
    (h : readInstr opc m f s = .next t) : ExecFrame s t := by
  cases h; exact (load_resolve_frame _ m s).exec (hf _) _

/-- A store keeps what a bus write keeps. -/
theorem store_frame (op : Operand) (b : Byte) {s t : State} (hop : op ≠ .acc) (h : BusFrame s t) (hq : t.wq = s.wq) :
    BusFrame s (store op b t) := by
  cases op <;> first | exact absurd rfl hop | exact h | exact busWrite_frame _ b h hq

theorem CpuFrame.id : CpuFrame id := ⟨fun _ => rfl, fun _ => rfl, fun _ => rfl, fun _ => rfl⟩

theorem CpuFrame.comp {f g : Cpu → Cpu} (hf : CpuFrame f) (hg : CpuFrame g) : CpuFrame (fun c => f (g c)) :=
  ⟨fun c => (hf.resetPending _).trans (hg.resetPending c), fun c => (hf.fault _).trans (hg.fault c),
    fun c => (hf.b _).trans (hg.b c), fun c => (hf.u _).trans (hg.u c)⟩

/-- A storing instruction. -/
theorem storeInstr_frame (opc : Byte) (m : Mode) (hm : ∀ s, (resolve m s).op ≠ .acc) (reg : Cpu → Byte) {s t : State}
    (h : storeInstr opc m reg s = .next t) : ExecFrame s t := by
  cases h
  exact (store_frame _ _ (hm s) (resolve_frame m s) (by simp)).exec CpuFrame.id _

/-- A read-modify-write instruction. -/
theorem modifyInstr_frame (opc : Byte) (m : Mode) (v : Byte → Cpu → Byte) {f : Byte → Cpu → Cpu} (hf : ∀ b, CpuFrame (f b)) {s t : State}
    (h : modifyInstr opc m v f s = .next t) : ExecFrame s t := by
  cases h
  generalize hop : (resolve m s).op = op
  by_cases hacc : op = .acc
  · subst hacc
    exact (load_resolve_frame .acc m s).exec ((hf _).comp (g := fun c => { c with a := v (load .acc (resolve m s).st).1 (load .acc (resolve m s).st).2.cpu })
      ⟨fun _ => rfl, fun _ => rfl, fun _ => rfl, fun _ => rfl⟩) _
  · exact (store_frame op _ hacc (load_resolve_frame op m s) (by simp)).exec (hf _) _

/-- A register instruction. -/
theorem registerInstr_frame (opc : Byte) {f : Cpu → Cpu} (hf : CpuFrame f) {s t : State} (h : registerInstr opc f s = .next t) :
    ExecFrame s t := by
  cases h; exact (BusFrame.refl s).exec hf _

/-- A register instruction that leaves `P` or writes its N and Z. -/
theorem registerInstr_nz {opc : Byte} {f : Cpu → Cpu} {s t : State} (h : registerInstr opc f s = .next t)
    (h1 : ∀ c, (f c).resetPending = c.resetPending) (h2 : ∀ c, (f c).fault = c.fault)
    (h3 : ∀ c, (f c).p = c.p ∨ ∃ r, (f c).p = setNZ r c.p) : ExecFrame s t := by
  refine registerInstr_frame opc ⟨h1, h2, fun c => ?_, fun c => ?_⟩ h <;> rcases h3 c with h | ⟨r, h⟩ <;> rw [h] <;> simp

/-- A branch. -/
theorem branchInstr_frame (opc d : Byte) (taken : Bool) {s t : State} (h : branchInstr opc d taken s = .next t) : ExecFrame s t := by
  cases h
  cases taken
  · exact (BusFrame.refl s).exec CpuFrame.id _
  · exact (BusFrame.refl s).exec (f := fun c => { c with pc := branchTarget d s }) ⟨fun _ => rfl, fun _ => rfl, fun _ => rfl, fun _ => rfl⟩ _

/-- Stack bytes written, then an effect on the registers. -/
theorem stack_frame {s : State} {m : Memory} (hm : Memory.ok wramSize s.wram = true → Memory.ok wramSize m = true) {c : Cpu}
    (hr : c.resetPending = s.cpu.resetPending) (hf : c.fault = s.cpu.fault)
    (hl : getFlag .b s.cpu.p = false → getFlag .u s.cpu.p = true → getFlag .b c.p = false ∧ getFlag .u c.p = true) :
    ExecFrame s { s with wram := m, cpu := c } where
  cfg := rfl
  prg := rfl
  dotsTotal := rfl
  run := rfl
  irqLine := rfl
  sinkReady := rfl
  inputs := rfl
  resetPending := hr
  fault := hf
  live := hl
  wq := .inl rfl
  wram := hm
  ppu := id
  pad := id

theorem stackCell_lt (sp : Byte) : 0x100 + sp.toNat < wramSize := by simp only [wramSize]; omega

theorem cpuFrame_of_p {f : Cpu → Cpu} (hr : ∀ c, (f c).resetPending = c.resetPending) (hf : ∀ c, (f c).fault = c.fault)
    (hp : ∀ c g, g = .b ∨ g = .u → getFlag g (f c).p = getFlag g c.p) : CpuFrame f :=
  ⟨hr, hf, fun c => hp c .b (.inl rfl), fun c => hp c .u (.inr rfl)⟩

theorem loadA_frame (b : Byte) : CpuFrame (loadA b) := ⟨fun _ => rfl, fun _ => rfl, fun _ => by simp [loadA], fun _ => by simp [loadA]⟩
theorem loadX_frame (b : Byte) : CpuFrame (loadX b) := ⟨fun _ => rfl, fun _ => rfl, fun _ => by simp [loadX], fun _ => by simp [loadX]⟩
theorem loadY_frame (b : Byte) : CpuFrame (loadY b) := ⟨fun _ => rfl, fun _ => rfl, fun _ => by simp [loadY], fun _ => by simp [loadY]⟩
theorem andA_frame (b : Byte) : CpuFrame (andA b) := ⟨fun _ => rfl, fun _ => rfl, fun _ => by simp [andA], fun _ => by simp [andA]⟩
theorem eorA_frame (b : Byte) : CpuFrame (eorA b) := ⟨fun _ => rfl, fun _ => rfl, fun _ => by simp [eorA], fun _ => by simp [eorA]⟩
theorem oraA_frame (b : Byte) : CpuFrame (oraA b) := ⟨fun _ => rfl, fun _ => rfl, fun _ => by simp [oraA], fun _ => by simp [oraA]⟩
theorem bitTest_frame (b : Byte) : CpuFrame (bitTest b) :=
  ⟨fun _ => rfl, fun _ => rfl, fun _ => by simp [bitTest], fun _ => by simp [bitTest]⟩
theorem addA_frame (b : Byte) : CpuFrame (addA b) := ⟨fun _ => rfl, fun _ => rfl, fun _ => by simp [addA], fun _ => by simp [addA]⟩
theorem subA_frame (b : Byte) : CpuFrame (subA b) := addA_frame _
theorem compareA_frame (b : Byte) : CpuFrame (compareA b) :=
  ⟨fun _ => rfl, fun _ => rfl, fun _ => by simp [compareA], fun _ => by simp [compareA]⟩
theorem compareX_frame (b : Byte) : CpuFrame (compareX b) :=
  ⟨fun _ => rfl, fun _ => rfl, fun _ => by simp [compareX], fun _ => by simp [compareX]⟩
theorem compareY_frame (b : Byte) : CpuFrame (compareY b) :=
  ⟨fun _ => rfl, fun _ => rfl, fun _ => by simp [compareY], fun _ => by simp [compareY]⟩
theorem nzOf_frame (b : Byte) : CpuFrame (nzOf b) := ⟨fun _ => rfl, fun _ => rfl, fun _ => by simp [nzOf], fun _ => by simp [nzOf]⟩
theorem shiftFlags_frame (v : Byte → Cpu → Byte) (n : Nat) (b : Byte) : CpuFrame (shiftFlags v n b) :=
  ⟨fun _ => rfl, fun _ => rfl, fun _ => by simp [shiftFlags], fun _ => by simp [shiftFlags]⟩
theorem iscEffect_frame (b : Byte) : CpuFrame (iscEffect b) := addA_frame _
theorem writeFlag_frame {f : Flag} (on : Bool) (hb : f ≠ .b) (hu : f ≠ .u) : CpuFrame (writeFlag f on) :=
  ⟨fun _ => rfl, fun _ => rfl, fun _ => by simp [writeFlag, hb.symm], fun _ => by simp [writeFlag, hu.symm]⟩

theorem live_setFlag_i (p : Byte) : getFlag .b p = false → getFlag .u p = true →
    getFlag .b (setFlag .i true p) = false ∧ getFlag .u (setFlag .i true p) = true := fun hb hu => by simp [hb, hu]

theorem live_pulledStatus (b : Byte) : getFlag .b (pulledStatus b) = false ∧ getFlag .u (pulledStatus b) = true := by
  simp [getFlag_pulledStatus]

theorem push_ok {s : State} {m : Memory} (sp b : Byte) (hm : Memory.ok wramSize s.wram = true → Memory.ok wramSize m = true) :
    Memory.ok wramSize s.wram = true → Memory.ok wramSize (m.write (0x100 + sp.toNat) b) = true :=
  fun h => Memory.ok_write _ (hm h) (stackCell_lt sp)

/-- Every instruction but the decode failure keeps what `ExecFrame` says. -/
theorem exec_frame (i : Instr) {s t : State} (hi : i.mnemonic ≠ .decodeFailure) (h : exec i s = .next t) : ExecFrame s t := by
  generalize hm : i.mnemonic = m
  cases m with
  | lda => exact readInstr_frame _ _ loadA_frame (exec_lda i s hm ▸ h)
  | ldx => exact readInstr_frame _ _ loadX_frame (exec_ldx i s hm ▸ h)
  | ldy => exact readInstr_frame _ _ loadY_frame (exec_ldy i s hm ▸ h)
  | and => exact readInstr_frame _ _ andA_frame (exec_and i s hm ▸ h)
  | eor => exact readInstr_frame _ _ eorA_frame (exec_eor i s hm ▸ h)
  | ora => exact readInstr_frame _ _ oraA_frame (exec_ora i s hm ▸ h)
  | bit => exact readInstr_frame _ _ bitTest_frame (exec_bit i s hm ▸ h)
  | adc => exact readInstr_frame _ _ addA_frame (exec_adc i s hm ▸ h)
  | sbc => exact readInstr_frame _ _ subA_frame (exec_sbc i s hm ▸ h)
  | cmp => exact readInstr_frame _ _ compareA_frame (exec_cmp i s hm ▸ h)
  | cpx => exact readInstr_frame _ _ compareX_frame (exec_cpx i s hm ▸ h)
  | cpy => exact readInstr_frame _ _ compareY_frame (exec_cpy i s hm ▸ h)
  | sta => exact storeInstr_frame _ _ (by cases i <;> cases hm <;> exact fun _ => nofun) _ (exec_sta i s hm ▸ h)
  | stx => exact storeInstr_frame _ _ (by cases i <;> cases hm <;> exact fun _ => nofun) _ (exec_stx i s hm ▸ h)
  | sty => exact storeInstr_frame _ _ (by cases i <;> cases hm <;> exact fun _ => nofun) _ (exec_sty i s hm ▸ h)
  | inc => exact modifyInstr_frame _ _ _ (fun _ => nzOf_frame _) (exec_inc i s hm ▸ h)
  | dec => exact modifyInstr_frame _ _ _ (fun _ => nzOf_frame _) (exec_dec i s hm ▸ h)
  | asl => exact modifyInstr_frame _ _ _ (shiftFlags_frame _ _) (exec_asl i s hm ▸ h)
  | lsr => exact modifyInstr_frame _ _ _ (shiftFlags_frame _ _) (exec_lsr i s hm ▸ h)
  | rol => exact modifyInstr_frame _ _ _ (shiftFlags_frame _ _) (exec_rol i s hm ▸ h)
  | ror => exact modifyInstr_frame _ _ _ (shiftFlags_frame _ _) (exec_ror i s hm ▸ h)
  | isc => exact modifyInstr_frame _ _ _ (iscEffect_frame) (exec_isc i s hm ▸ h)
  | tax => obtain rfl := Instr.eq_tax i hm; exact registerInstr_nz h (fun _ => rfl) (fun _ => rfl) fun _ => .inr ⟨_, rfl⟩
  | tay => obtain rfl := Instr.eq_tay i hm; exact registerInstr_nz h (fun _ => rfl) (fun _ => rfl) fun _ => .inr ⟨_, rfl⟩
  | txa => obtain rfl := Instr.eq_txa i hm; exact registerInstr_nz h (fun _ => rfl) (fun _ => rfl) fun _ => .inr ⟨_, rfl⟩
  | tya => obtain rfl := Instr.eq_tya i hm; exact registerInstr_nz h (fun _ => rfl) (fun _ => rfl) fun _ => .inr ⟨_, rfl⟩
  | tsx => obtain rfl := Instr.eq_tsx i hm; exact registerInstr_nz h (fun _ => rfl) (fun _ => rfl) fun _ => .inr ⟨_, rfl⟩
  | inx => obtain rfl := Instr.eq_inx i hm; exact registerInstr_nz h (fun _ => rfl) (fun _ => rfl) fun _ => .inr ⟨_, rfl⟩
  | dex => obtain rfl := Instr.eq_dex i hm; exact registerInstr_nz h (fun _ => rfl) (fun _ => rfl) fun _ => .inr ⟨_, rfl⟩
  | iny => obtain rfl := Instr.eq_iny i hm; exact registerInstr_nz h (fun _ => rfl) (fun _ => rfl) fun _ => .inr ⟨_, rfl⟩
  | dey => obtain rfl := Instr.eq_dey i hm; exact registerInstr_nz h (fun _ => rfl) (fun _ => rfl) fun _ => .inr ⟨_, rfl⟩
  | txs => obtain rfl := Instr.eq_txs i hm; exact registerInstr_nz h (fun _ => rfl) (fun _ => rfl) fun _ => .inl rfl
  | clc => obtain rfl := Instr.eq_clc i hm; exact registerInstr_frame _ (writeFlag_frame (f := .c) _ nofun nofun) h
  | sec => obtain rfl := Instr.eq_sec i hm; exact registerInstr_frame _ (writeFlag_frame (f := .c) _ nofun nofun) h
  | cli => obtain rfl := Instr.eq_cli i hm; exact registerInstr_frame _ (writeFlag_frame (f := .i) _ nofun nofun) h
  | sei => obtain rfl := Instr.eq_sei i hm; exact registerInstr_frame _ (writeFlag_frame (f := .i) _ nofun nofun) h
  | clv => obtain rfl := Instr.eq_clv i hm; exact registerInstr_frame _ (writeFlag_frame (f := .v) _ nofun nofun) h
  | cld => obtain rfl := Instr.eq_cld i hm; exact registerInstr_frame _ (writeFlag_frame (f := .d) _ nofun nofun) h
  | sed => obtain rfl := Instr.eq_sed i hm; exact registerInstr_frame _ (writeFlag_frame (f := .d) _ nofun nofun) h
  | nop => obtain rfl := Instr.eq_nop i hm; exact registerInstr_frame _ CpuFrame.id h
  | bpl => obtain ⟨a, rfl⟩ := Instr.eq_bpl i hm; exact branchInstr_frame _ _ _ h
  | bmi => obtain ⟨a, rfl⟩ := Instr.eq_bmi i hm; exact branchInstr_frame _ _ _ h
  | bvc => obtain ⟨a, rfl⟩ := Instr.eq_bvc i hm; exact branchInstr_frame _ _ _ h
  | bvs => obtain ⟨a, rfl⟩ := Instr.eq_bvs i hm; exact branchInstr_frame _ _ _ h
  | bcc => obtain ⟨a, rfl⟩ := Instr.eq_bcc i hm; exact branchInstr_frame _ _ _ h
  | bcs => obtain ⟨a, rfl⟩ := Instr.eq_bcs i hm; exact branchInstr_frame _ _ _ h
  | bne => obtain ⟨a, rfl⟩ := Instr.eq_bne i hm; exact branchInstr_frame _ _ _ h
  | beq => obtain ⟨a, rfl⟩ := Instr.eq_beq i hm; exact branchInstr_frame _ _ _ h
  | pha =>
    obtain rfl := Instr.eq_pha i hm
    cases h
    rw [push_eq]
    exact stack_frame (push_ok _ _ id) rfl rfl fun hb hu => ⟨hb, hu⟩
  | php =>
    obtain rfl := Instr.eq_php i hm
    cases h
    rw [push_eq]
    exact stack_frame (push_ok _ _ id) rfl rfl fun hb hu => ⟨hb, hu⟩
  | pla =>
    obtain rfl := Instr.eq_pla i hm
    cases h
    rw [pull_eq]
    exact stack_frame id rfl rfl fun hb hu => by simp [hb, hu]
  | plp =>
    obtain rfl := Instr.eq_plp i hm
    cases h
    rw [pull_eq]
    exact stack_frame id rfl rfl fun _ _ => live_pulledStatus _
  | jmp =>
    cases i <;> cases hm <;> cases h
    · exact stack_frame id rfl rfl fun hb hu => ⟨hb, hu⟩
    · rename_i a
      exact (resolve_frame (.ind a) s).exec (f := fun c => { c with pc := (indirectTarget a s).1 })
        ⟨fun _ => rfl, fun _ => rfl, fun _ => rfl, fun _ => rfl⟩ _
  | jsr =>
    obtain ⟨a, rfl⟩ := Instr.eq_jsr i hm
    cases h
    rw [push16_eq]
    exact stack_frame (push_ok _ _ (push_ok _ _ id)) rfl rfl fun hb hu => ⟨hb, hu⟩
  | rts =>
    obtain rfl := Instr.eq_rts i hm
    cases h
    rw [pull16_eq]
    exact stack_frame id rfl rfl fun hb hu => ⟨hb, hu⟩
  | brk =>
    obtain rfl := Instr.eq_brk i hm
    cases h
    rw [enterInterrupt_eq _ _ _ _ (by decide) (by decide)]
    exact stack_frame (push_ok _ _ (push_ok _ _ (push_ok _ _ id))) rfl rfl (live_setFlag_i _)
  | rti =>
    obtain rfl := Instr.eq_rti i hm
    cases h
    rw [returnFromInterrupt_eq]
    exact stack_frame id rfl rfl fun _ _ => live_pulledStatus _
  | decodeFailure => exact absurd hm hi

/-- All that the decode failure does (R1240). -/
theorem exec_decodeFailure (i : Instr) (s : State) (h : i.mnemonic = .decodeFailure) :
    exec i s = .next { s with cpu := { s.cpu with pc := s.cpu.pc - 1, fault := some ⟨i.opcode, s.cpu.pc - 1⟩ } } := by
  rw [decodeFailure_of_mnemonic i h]; rfl

end Sys2Proof.Machine
end

