-- ==== Sys2Proof/Laws/Render.lean ====
section
/-! SUPPORT. Laws/Render.lean: what a dot of the PPU can do: the pipelines' frames, the position, the counts, and the dot as a whole. -/

namespace Sys2Proof.Machine

/-! ## The background pipeline -/

/-- All the background pipeline writes: `v`, the shift registers and the fetch latches. -/
theorem bgPipeline_frame (m : Mirroring) (q : Ppu) : ∃ v lo hi a0 a1 nt at2 pl ph,
    bgPipeline m q =
      { q with v := v, bgLo := lo, bgHi := hi, bgAt0 := a0, bgAt1 := a1, ntByte := nt, atBits := at2, ptLo := pl, ptHi := ph } := by
  unfold bgPipeline bgFetch bgScroll
  repeat' split
  all_goals first
    | exact ⟨_, _, _, _, _, _, _, _, _, rfl⟩
    | (dsimp only; split <;> exact ⟨_, _, _, _, _, _, _, _, _, rfl⟩)

/-- With the background off the background pipeline does nothing (R905). -/
theorem bgPipeline_off (m : Mirroring) (q : Ppu) (h : q.bgOn = false) : bgPipeline m q = q := by
  simp [bgPipeline, h]

/-! ## The sprite pipeline -/

@[simp] theorem setSlot_length (i : Nat) (g : Slot → Slot) (l : List Slot) : (setSlot i g l).length = l.length := by
  simp [setSlot]

theorem evalSprite_frame (n : Nat) (q : Ppu) : ∃ o c z, evalSprite n q = { q with oam2 := o, oam2Count := c, s0Next := z } := by
  unfold evalSprite; split <;> exact ⟨_, _, _, rfl⟩

/-- What evaluation can do to secondary OAM and its count. -/
theorem evalSprite_ok (n : Nat) {q : Ppu} (hc : q.oam2Count ≤ 8) (ho : Memory.ok oam2Size q.oam2 = true) :
    (evalSprite n q).oam2Count ≤ 8 ∧ Memory.ok oam2Size (evalSprite n q).oam2 = true := by
  unfold evalSprite
  split
  · rename_i h
    simp only [Bool.and_eq_true, decide_eq_true_eq] at h
    refine ⟨by simp only; omega, Memory.ok_writeBytes _ ho ?_⟩
    simp only [oam2Size, List.length_cons, List.length_nil]; omega
  · exact ⟨hc, ho⟩

theorem clearOam2_ok (q : Ppu) : Memory.ok oam2Size (clearOam2 q).oam2 = true := by
  show Memory.ok oam2Size (Memory.writeBytes [] 0 (List.replicate oam2Size 0xFF)) = true
  decide +kernel

theorem sprEvaluate_frame (q : Ppu) : ∃ o c z, sprEvaluate q = { q with oam2 := o, oam2Count := c, s0Next := z } := by
  unfold sprEvaluate
  repeat' split
  · exact ⟨_, _, _, rfl⟩
  · exact evalSprite_frame _ q
  · exact ⟨_, _, _, rfl⟩

theorem sprEvaluate_ok {q : Ppu} (hc : q.oam2Count ≤ 8) (ho : Memory.ok oam2Size q.oam2 = true) :
    (sprEvaluate q).oam2Count ≤ 8 ∧ Memory.ok oam2Size (sprEvaluate q).oam2 = true := by
  unfold sprEvaluate
  repeat' split
  · exact ⟨Nat.zero_le _, clearOam2_ok q⟩
  · exact evalSprite_ok _ hc ho
  · exact ⟨hc, ho⟩

theorem sprFetch_frame (m : Mirroring) (q : Ppu) : ∃ l f, l.length = q.spr.length ∧ sprFetch m q = { q with spr := l, fetch := f } := by
  unfold sprFetch
  dsimp only
  split
  · exact ⟨_, _, setSlot_length _ _ _, rfl⟩
  · exact ⟨_, _, rfl, rfl⟩
  · exact ⟨_, _, rfl, rfl⟩
  · exact ⟨_, _, setSlot_length _ _ _, rfl⟩
  · exact ⟨_, _, rfl, rfl⟩

/-- All the sprite pipeline writes, and the bounds it keeps. -/
theorem sprPipeline_frame (m : Mirroring) (q : Ppu) : ∃ o c zn zc l f,
    sprPipeline m q = { q with oam2 := o, oam2Count := c, s0Next := zn, s0Cur := zc, spr := l, fetch := f } ∧ l.length = q.spr.length ∧
      (q.oam2Count ≤ 8 → Memory.ok oam2Size q.oam2 = true → c ≤ 8 ∧ Memory.ok oam2Size o = true) := by
  unfold sprPipeline
  split
  · obtain ⟨o, c, z, he⟩ := sprEvaluate_frame q
    have hok : q.oam2Count ≤ 8 → Memory.ok oam2Size q.oam2 = true → c ≤ 8 ∧ Memory.ok oam2Size o = true := fun h1 h2 => by
      have := sprEvaluate_ok h1 h2; rw [he] at this; exact this
    have hs : ∃ zc, s0Transfer (sprEvaluate q) = { q with oam2 := o, oam2Count := c, s0Next := z, s0Cur := zc } := by
      unfold s0Transfer; split <;> exact ⟨_, by rw [he]⟩
    obtain ⟨zc, hs⟩ := hs
    dsimp only
    obtain ⟨l, f, hl, hf⟩ := sprFetch_frame m (s0Transfer (sprEvaluate q))
    rw [hs] at hl
    split
    · rw [hf, hs]
      split
      · exact ⟨o, c, z, zc, _, f, rfl, by simpa using hl, hok⟩
      · exact ⟨o, c, z, zc, _, f, rfl, hl, hok⟩
    · rw [he]
      split
      · exact ⟨o, c, z, _, _, _, rfl, by simp, hok⟩
      · exact ⟨o, c, z, _, _, _, rfl, rfl, hok⟩
  · exact ⟨_, _, _, _, _, _, rfl, rfl, fun h1 h2 => ⟨h1, h2⟩⟩

/-- With sprites off the sprite pipeline does nothing (R905). -/
theorem sprPipeline_off (m : Mirroring) (q : Ppu) (h : q.sprOn = false) : sprPipeline m q = q := by
  simp [sprPipeline, h]

/-- A read of the PPU bus looks at its three memories only. -/
theorem ppuRead_congr {q r : Ppu} (m : Mirroring) (a : Word) (h1 : q.chr = r.chr) (h2 : q.ciram = r.ciram) (h3 : q.pal = r.pal) :
    ppuRead m a q = ppuRead m a r := by
  unfold ppuRead; rw [h1, h2, h3]

/-! ## The position -/

/-- All the position's advance writes, and the bounds it keeps (R150, R901). -/
theorem advance_frame (cfg : Config) (q : Ppu) : ∃ sl d f, advance cfg q = { q with scanline := sl, dot := d, frame := f } ∧
    (q.scanline ≤ 261 → q.dot ≤ 340 → sl ≤ 261 ∧ d ≤ 340) := by
  unfold advance
  repeat' split
  · exact ⟨_, _, _, rfl, fun _ _ => by omega⟩
  · exact ⟨_, _, _, rfl, fun _ _ => by omega⟩
  · exact ⟨_, _, _, rfl, fun _ _ => by omega⟩
  · exact ⟨_, _, _, rfl, fun _ _ => by omega⟩

/-! ## The dot as a whole -/

/-- All the vertical-blank events write. -/
theorem vblankEvents_frame (s : State) : ∃ vb hit nmi,
    vblankEvents s = { s with ppu := { s.ppu with vblank := vb, s0hit := hit }, nmiLine := nmi } := by
  unfold vblankEvents
  repeat' split
  all_goals exact ⟨_, _, _, rfl⟩

/-- All the pixel of a dot writes: the sprite-0 flag and the calls to the host. -/
theorem pixelStep_frame (s : State) : ∃ hit calls,
    pixelStep s = { s with ppu := { s.ppu with s0hit := hit }, host := { s.host with calls := calls } } := by
  unfold pixelStep State.callSink
  repeat' split
  all_goals exact ⟨_, _, rfl⟩

/-- The dot's registers and memories that no dot writes: the registers the program writes, the toggle and the four memories. -/
structure Ppu.SameRegisters (q r : Ppu) : Prop where
  ctrl : r.ctrl = q.ctrl
  mask : r.mask = q.mask
  oamAddr : r.oamAddr = q.oamAddr
  t : r.t = q.t
  fineX : r.fineX = q.fineX
  w : r.w = q.w
  readBuf : r.readBuf = q.readBuf
  chr : r.chr = q.chr
  ciram : r.ciram = q.ciram
  pal : r.pal = q.pal
  oam : r.oam = q.oam

/-- The ranges of R150 and R152 hold. -/
structure Ppu.InRange (q : Ppu) : Prop where
  scanline : q.scanline ≤ 261
  dot : q.dot ≤ 340
  spr : q.spr.length = 8
  count : q.oam2Count ≤ 8
  oam2 : Memory.ok oam2Size q.oam2 = true

/-- All that a dot of the PPU does: it writes the PPU, the NMI line and the calls to the host, leaves the PPU's registers and memories, and
keeps the ranges. -/
theorem ppuDot_frame (s : State) : ∃ q nmi calls,
    ppuDot s = { s with ppu := q, nmiLine := nmi, host := { s.host with calls := calls } } ∧ s.ppu.SameRegisters q ∧
      (s.ppu.InRange → q.InRange) := by
  obtain ⟨vb, hit, nmi, h1⟩ := vblankEvents_frame s
  obtain ⟨hit', calls, h2⟩ := pixelStep_frame (vblankEvents s)
  have h3 : pixelStep (vblankEvents s) =
      { s with ppu := { s.ppu with vblank := vb, s0hit := hit' }, nmiLine := nmi, host := { s.host with calls := calls } } := by
    rw [h2, h1]
  obtain ⟨v, lo, hi, a0, a1, nt, at2, pl, ph, h4⟩ := bgPipeline_frame s.cfg.mirroring { s.ppu with vblank := vb, s0hit := hit' }
  obtain ⟨o, c, zn, zc, l, f, h5, hl, hok⟩ := sprPipeline_frame s.cfg.mirroring
    (bgPipeline s.cfg.mirroring { s.ppu with vblank := vb, s0hit := hit' })
  obtain ⟨sl, d, fr, h6, hr⟩ := advance_frame s.cfg
    (sprPipeline s.cfg.mirroring (bgPipeline s.cfg.mirroring { s.ppu with vblank := vb, s0hit := hit' }))
  refine ⟨advance s.cfg (sprPipeline s.cfg.mirroring (bgPipeline s.cfg.mirroring { s.ppu with vblank := vb, s0hit := hit' })),
    nmi, calls, ?_, ?_, ?_⟩
  · unfold ppuDot; rw [h3]; rfl
  · rw [h6, h5, h4]; constructor <;> rfl
  · intro h
    rw [h4] at hl hok
    rw [h6]
    rw [h5, h4] at hr ⊢
    have := hr h.scanline h.dot
    have := hok h.count h.oam2
    constructor
    · exact (hr h.scanline h.dot).1
    · exact (hr h.scanline h.dot).2
    · exact hl.trans h.spr
    · exact this.1
    · exact this.2

/-- A dot's PPU: the two pipelines and the advance, over the PPU with the flags of vertical blank and sprite 0 as the dot sets
them (R902). -/
theorem ppuDot_pipelines (s : State) : ∃ vb hit, (ppuDot s).ppu =
    advance s.cfg (sprPipeline s.cfg.mirroring (bgPipeline s.cfg.mirroring { s.ppu with vblank := vb, s0hit := hit })) := by
  obtain ⟨vb, hit, nmi, h1⟩ := vblankEvents_frame s
  obtain ⟨hit', calls, h2⟩ := pixelStep_frame (vblankEvents s)
  refine ⟨vb, hit', ?_⟩
  unfold ppuDot
  rw [h2, h1]
  rfl

end Sys2Proof.Machine
end

