-- ==== Sys2Proof/Laws/Scheduler.lean ====
section
/-! SUPPORT. Laws/Scheduler.lean: what the dots of a tick, the tick and the step can do. -/

namespace Sys2Proof.Machine

/-! ## Register writes and due writes -/

theorem Ppu.Legal.regWrite (m : Mirroring) (r : RegIndex) (b : Byte) {q : Ppu} (h : q.Legal) : (ppuRegWrite m r b q).Legal := by
  obtain ⟨h1, h2, h3, h4, h5, h6, h7, h8, h9⟩ := h
  obtain ⟨k1, k2, k3, k4⟩ := ppuRegWrite_ok m r b h6 h7 h8 h9
  simp only [Ppu.Legal, ppuRegWrite_scanline, ppuRegWrite_dot, ppuRegWrite_spr, ppuRegWrite_oam2Count, ppuRegWrite_oam2]
  exact ⟨h1, h2, h3, h4, h5, k1, k2, k3, k4⟩

/-- Register writes change the PPU and the NMI line only. -/
theorem applyWrites_frame (l : List QueuedWrite) (s : State) : ∃ q n,
    l.foldl (fun t e => applyRegWrite e.reg e.byte t) s = { s with ppu := q, nmiLine := n } ∧ (s.ppu.Legal → q.Legal) := by
  induction l generalizing s with
  | nil => exact ⟨_, _, rfl, id⟩
  | cons e l ih =>
    obtain ⟨q, n, h, hl⟩ := ih (applyRegWrite e.reg e.byte s)
    exact ⟨q, n, h, fun hs => hl (hs.regWrite _ _ _)⟩

theorem applyDue_frame (s : State) : ∃ q n,
    applyDue s = { s with ppu := q, nmiLine := n, wq := s.wq.filter fun e => e.target != s.dotsTotal } ∧ (s.ppu.Legal → q.Legal) := by
  obtain ⟨q, n, h, hl⟩ := applyWrites_frame (s.wq.filter fun e => e.target == s.dotsTotal)
    { s with wq := s.wq.filter fun e => e.target != s.dotsTotal }
  exact ⟨q, n, h, hl⟩

/-- With no delayed write due at this dot, applying the due ones changes nothing. -/
theorem applyDue_of_none_due {s : State} (h : ∀ e ∈ s.wq, e.target ≠ s.dotsTotal) : applyDue s = s := by
  have h1 : (s.wq.filter fun e => e.target == s.dotsTotal) = [] := by simpa using h
  have h2 : (s.wq.filter fun e => e.target != s.dotsTotal) = s.wq := by rw [List.filter_eq_self]; simpa using h
  unfold applyDue
  rw [h1, h2]
  rfl

/-- The first delayed write due is applied, and then the rest of the queue as if it had not been there (R1101). -/
theorem applyDue_of_first_due {s : State} {before after : List QueuedWrite} {e : QueuedWrite} (h : s.wq = before ++ e :: after)
    (hb : ∀ o ∈ before, o.target ≠ s.dotsTotal) (he : e.target = s.dotsTotal) :
    applyDue s = applyDue (applyRegWrite e.reg e.byte { s with wq := before ++ after }) := by
  have hdue : ∀ l, (before ++ l).filter (fun e => e.target == s.dotsTotal) = l.filter fun e => e.target == s.dotsTotal := fun l => by
    simpa [List.filter_append] using hb
  have hlater : (before ++ e :: after).filter (fun e => e.target != s.dotsTotal)
      = (before ++ after).filter fun e => e.target != s.dotsTotal := by
    simp [List.filter_append, he]
  unfold applyDue
  rw [h, hdue, hlater]
  simp only [applyRegWrite, hdue, he, List.filter_cons_of_pos, beq_self_eq_true, List.foldl_cons]

theorem applyDue_nil {s : State} (h : s.wq = []) : applyDue s = s := by
  cases s; subst h; rfl

/-! ## Dots -/

theorem Ppu.Legal.inRange {q : Ppu} (h : q.Legal) : q.InRange := ⟨h.1, h.2.1, h.2.2.1, h.2.2.2.1, h.2.2.2.2.1⟩

theorem Ppu.Legal.ofDot {q r : Ppu} (h : q.Legal) (hs : q.SameRegisters r) (hr : r.InRange) : r.Legal := by
  obtain ⟨h1, h2, h3, h4, h5, h6, h7, h8, h9⟩ := h
  refine ⟨hr.scanline, hr.dot, hr.spr, hr.count, hr.oam2, ?_, ?_, ?_, ?_⟩
  · rw [hs.chr]; exact h6
  · rw [hs.ciram]; exact h7
  · rw [hs.pal]; exact h8
  · rw [hs.oam]; exact h9

/-- All that a dot step does. -/
theorem dotStep_frame (s : State) : ∃ q n calls,
    dotStep s =
      { s with
        ppu := q, nmiLine := n, wq := s.wq.filter fun e => e.target != s.dotsTotal
        dotsTotal := s.dotsTotal + 1, host := { s.host with calls := calls } } ∧
      (s.ppu.Legal → q.Legal) := by
  obtain ⟨q, n, h, hl⟩ := applyDue_frame s
  obtain ⟨q', n', calls, h', hs, hr⟩ := ppuDot_frame (applyDue s)
  refine ⟨q', n', calls, ?_, fun hq => ?_⟩
  · unfold dotStep; rw [h', h]
  · rw [h] at hs hr
    exact (hl hq).ofDot hs (hr (hl hq).inRange)

/-- All that the three dot steps of a tick do. -/
theorem dots_frame (s : State) : ∃ q n w calls,
    dots s =
      { s with ppu := q, nmiLine := n, wq := w, dotsTotal := s.dotsTotal + 3, host := { s.host with calls := calls } } ∧
      (s.ppu.Legal → q.Legal) ∧
      ∀ e, e ∈ w ↔ e ∈ s.wq ∧ e.target ≠ s.dotsTotal ∧ e.target ≠ s.dotsTotal + 1 ∧ e.target ≠ s.dotsTotal + 2 := by
  obtain ⟨q1, n1, c1, h1, l1⟩ := dotStep_frame s
  obtain ⟨q2, n2, c2, h2, l2⟩ := dotStep_frame (dotStep s)
  obtain ⟨q3, n3, c3, h3, l3⟩ := dotStep_frame (dotStep (dotStep s))
  refine ⟨q3, n3, ((s.wq.filter fun e => e.target != s.dotsTotal).filter fun e => e.target != s.dotsTotal + 1).filter
    fun e => e.target != s.dotsTotal + 2, c3, ?_, fun hq => ?_, fun e => ?_⟩
  · unfold dots; rw [h3, h2, h1]
  · rw [h2] at l3; rw [h1] at l2; exact l3 (l2 (l1 hq))
  · simp only [List.mem_filter, bne_iff_ne, and_assoc]

theorem dots_facts (s : State) : (dots s).cfg = s.cfg ∧ (dots s).cpu = s.cpu ∧ (dots s).wram = s.wram ∧ (dots s).prg = s.prg ∧
    (dots s).dotsTotal = s.dotsTotal + 3 ∧ (dots s).pad = s.pad ∧ (dots s).host = { s.host with calls := (dots s).host.calls } := by
  obtain ⟨q, n, w, c, h, -, -⟩ := dots_frame s
  rw [h]; exact ⟨rfl, rfl, rfl, rfl, rfl, rfl, rfl⟩

@[simp] theorem dots_cfg (s : State) : (dots s).cfg = s.cfg := (dots_facts s).1
@[simp] theorem dots_cpu (s : State) : (dots s).cpu = s.cpu := (dots_facts s).2.1
@[simp] theorem dots_wram (s : State) : (dots s).wram = s.wram := (dots_facts s).2.2.1
@[simp] theorem dots_prg (s : State) : (dots s).prg = s.prg := (dots_facts s).2.2.2.1
@[simp] theorem dots_dotsTotal (s : State) : (dots s).dotsTotal = s.dotsTotal + 3 := (dots_facts s).2.2.2.2.1
@[simp] theorem dots_pad (s : State) : (dots s).pad = s.pad := (dots_facts s).2.2.2.2.2.1
@[simp] theorem dots_run (s : State) : (dots s).host.run = s.host.run := by rw [(dots_facts s).2.2.2.2.2.2]
@[simp] theorem dots_inputs (s : State) : (dots s).host.inputs = s.host.inputs := by rw [(dots_facts s).2.2.2.2.2.2]

theorem dots_legal {s : State} (h : s.ppu.Legal) : (dots s).ppu.Legal := by
  obtain ⟨q, n, w, c, h1, h2, -⟩ := dots_frame s
  rw [h1]; exact h2 h

/-- What is left in the delayed-write queue after three dots. -/
theorem mem_dots_wq (s : State) (e : QueuedWrite) :
    e ∈ (dots s).wq ↔ e ∈ s.wq ∧ e.target ≠ s.dotsTotal ∧ e.target ≠ s.dotsTotal + 1 ∧ e.target ≠ s.dotsTotal + 2 := by
  obtain ⟨q, n, w, c, h1, -, h3⟩ := dots_frame s
  rw [h1]; exact h3 e

/-! ## The host's inputs -/

@[simp] theorem takeInputs_cpu_a (s : State) : (takeInputs s).cpu.a = s.cpu.a := by unfold takeInputs; split <;> rfl
@[simp] theorem takeInputs_cpu_x (s : State) : (takeInputs s).cpu.x = s.cpu.x := by unfold takeInputs; split <;> rfl
@[simp] theorem takeInputs_cpu_y (s : State) : (takeInputs s).cpu.y = s.cpu.y := by unfold takeInputs; split <;> rfl
@[simp] theorem takeInputs_cpu_s (s : State) : (takeInputs s).cpu.s = s.cpu.s := by unfold takeInputs; split <;> rfl
@[simp] theorem takeInputs_cpu_p (s : State) : (takeInputs s).cpu.p = s.cpu.p := by unfold takeInputs; split <;> rfl
@[simp] theorem takeInputs_cpu_pc (s : State) : (takeInputs s).cpu.pc = s.cpu.pc := by unfold takeInputs; split <;> rfl
@[simp] theorem takeInputs_cpu_budget (s : State) : (takeInputs s).cpu.budget = s.cpu.budget := by unfold takeInputs; split <;> rfl
@[simp] theorem takeInputs_cpu_fault (s : State) : (takeInputs s).cpu.fault = s.cpu.fault := by unfold takeInputs; split <;> rfl
@[simp] theorem takeInputs_host_buttons (s : State) : (takeInputs s).host.buttons = s.host.buttons := by unfold takeInputs; split <;> rfl
@[simp] theorem takeInputs_host_polls (s : State) : (takeInputs s).host.polls = s.host.polls := by unfold takeInputs; split <;> rfl
@[simp] theorem takeInputs_host_calls (s : State) : (takeInputs s).host.calls = [] := by unfold takeInputs; split <;> rfl

/-! ## The step -/

/-- A boundary always goes on. -/
theorem boundary_next (s : State) : ∃ t, boundary s = .next t := by
  unfold boundary
  split
  · exact ⟨_, rfl⟩
  · exact exec_next _ _

/-- All that a processor tick of a machine that has not faulted does. -/
theorem cpuTick_cases {s t : State} (hf : s.cpu.fault = none) (h : cpuTick s = .next t) :
    (s.cpu.budget ≠ 0 ∧ t = s.spend) ∨
    (s.cpu.budget = 0 ∧ ∃ u, boundary s = .next u ∧ t = if u.cpu.fault.isSome then u else u.spend) := by
  unfold cpuTick at h
  rw [hf] at h
  simp only [Option.isSome_none, Bool.false_eq_true, if_false] at h
  split at h
  · rename_i hb
    obtain ⟨u, hu⟩ := boundary_next s
    rw [hu] at h
    exact .inr ⟨hb, u, hu, (Host.Outcome.next.inj h).symm⟩
  · rename_i hb
    exact .inl ⟨hb, (Host.Outcome.next.inj h).symm⟩

theorem cpuTick_next {s : State} (hf : s.cpu.fault = none) : ∃ t, cpuTick s = .next t := by
  unfold cpuTick
  rw [hf]
  simp only [Option.isSome_none, Bool.false_eq_true, if_false]
  split
  · obtain ⟨u, hu⟩ := boundary_next s
    rw [hu]; exact ⟨_, rfl⟩
  · exact ⟨_, rfl⟩

/-- A step of a running machine that has not faulted is its processor tick after three dots. -/
theorem step_ran {s : State} (hr : (takeInputs s).host.run = true) (hf : s.cpu.fault = none) : step s = cpuTick (dots (takeInputs s)) := by
  obtain ⟨t, ht⟩ := cpuTick_next (s := dots (takeInputs s)) (by simpa using hf)
  have hf' : (takeInputs s).cpu.fault = none := by simpa using hf
  simp only [step, stepOutcome, machineStep, hr, if_true, hf', ht]
  unfold ranOrFaulted
  cases t.cpu.fault <;> simp [hf]

/-- A halted step takes the host's inputs and does nothing else (R1105). -/
theorem step_halted {s : State} (hr : (takeInputs s).host.run = false) : step s = .next (takeInputs s) := by
  simp [step, stepOutcome, machineStep, hr]

/-- A machine that has faulted stops (R1101). -/
theorem step_faulted {s : State} {f : DecodeFault} (hr : (takeInputs s).host.run = true) (hf : s.cpu.fault = some f) :
    step s = .fault (.decodeFailure f.opcode f.addr) := by
  simp [step, stepOutcome, machineStep, hr, hf]

/-- All that a step that goes on does: it stands halted, or counts a tick of the budget, or serves an interrupt, or runs an instruction. -/
theorem step_cases {s t : State} (h : step s = .next t) :
    ((takeInputs s).host.run = false ∧ t = takeInputs s) ∨
    ((takeInputs s).host.run = true ∧ s.cpu.fault = none ∧ s.cpu.budget ≠ 0 ∧ t = (dots (takeInputs s)).spend) ∨
    ((takeInputs s).host.run = true ∧ s.cpu.fault = none ∧ s.cpu.budget = 0 ∧
      ∃ u, boundary (dots (takeInputs s)) = .next u ∧ t = if u.cpu.fault.isSome then u else u.spend) := by
  cases hr : (takeInputs s).host.run with
  | false =>
    rw [step_halted hr] at h
    exact .inl ⟨rfl, (Host.Outcome.next.inj h).symm⟩
  | true =>
    cases hf : s.cpu.fault with
    | some f => rw [step_faulted hr hf] at h; cases h
    | none =>
      rw [step_ran hr hf] at h
      have hf' : (dots (takeInputs s)).cpu.fault = none := by simpa using hf
      rcases cpuTick_cases hf' h with ⟨hb, ht⟩ | ⟨hb, u, hu, ht⟩
      · exact .inr (.inl ⟨rfl, rfl, by simpa using hb, ht⟩)
      · exact .inr (.inr ⟨rfl, rfl, by simpa using hb, u, hu, ht⟩)

end Sys2Proof.Machine
end

