-- ==== Sys2Proof/Laws/Invariant.lean ====
section
/-! SUPPORT. Laws/Invariant.lean: the parts of a step each keep the machine invariant. -/

namespace Sys2Proof.Machine

/-- The invariant, from its parts. -/
theorem State.Inv.mk {s : State} (h1 : s.cpu.Legal) (h2 : s.ppu.Legal) (h3 : Memory.ok wramSize s.wram = true)
    (h4 : Memory.ok (prgSize s.cfg.prgBanks) s.prg = true) (h5 : s.QueueAhead) (h6 : s.pad.index ≤ 8) : s.Inv :=
  ⟨h1, h2, h3, h4, h5, h6⟩

theorem State.Inv.takeInputs {s : State} (h : s.Inv) : (takeInputs s).Inv := by
  obtain ⟨⟨hb, hu, hf⟩, h2, h3, h4, h5, h6⟩ := h
  obtain ⟨r, hc⟩ := takeInputs_cpu s
  refine State.Inv.mk ?_ ?_ ?_ ?_ ?_ ?_
  · rw [hc]; exact ⟨hb, hu, hf⟩
  · rw [takeInputs_ppu]; exact h2
  · rw [takeInputs_wram]; exact h3
  · rw [takeInputs_cfg, takeInputs_prg]; exact h4
  · unfold State.QueueAhead; rw [takeInputs_wq, takeInputs_dotsTotal]; exact h5
  · rw [takeInputs_pad]; exact h6

theorem State.Inv.dots {s : State} (h : s.Inv) : (dots s).Inv := by
  obtain ⟨h1, h2, h3, h4, h5, h6⟩ := h
  obtain ⟨q, n, w, c, he, hl, hw⟩ := dots_frame s
  rw [he]
  refine State.Inv.mk h1 (hl h2) h3 h4 (fun e hm => ?_) h6
  have := h5 e ((hw e).1 hm).1
  have := (hw e).1 hm
  show s.dotsTotal + 3 ≤ e.target
  omega

theorem State.Inv.spend {s : State} (h : s.Inv) : s.spend.Inv := by
  obtain ⟨⟨hb, hu, hf⟩, h2, h3, h4, h5, h6⟩ := h
  refine State.Inv.mk ⟨hb, hu, fun hx => ?_⟩ h2 h3 h4 h5 h6
  have := hf hx
  show s.cpu.budget - 1 = 0
  omega

/-- A service keeps the invariant of a machine that has not faulted. -/
theorem State.Inv.service {s : State} (h : s.Inv) (hf : s.cpu.fault = none) (k : IntKind) : (service k s).Inv := by
  obtain ⟨⟨hb, hu, -⟩, h2, h3, h4, h5, h6⟩ := h
  rw [service_eq]
  exact State.Inv.mk ⟨(live_setFlag_i _ hb hu).1, (live_setFlag_i _ hb hu).2, fun hx => absurd hf hx⟩ h2
    (push_ok _ _ (push_ok _ _ (push_ok (s := s) _ _ id)) h3) h4 h5 h6

theorem fetchByte_legal {s : State} (h : s.ppu.Legal) : (fetchByte s).2.ppu.Legal := by
  simpa [fetchByte, Ppu.Legal] using h

theorem fetchByte_index {s : State} (h : s.pad.index ≤ 8) : (fetchByte s).2.pad.index ≤ 8 := by
  simpa [fetchByte] using busRead_index s.cpu.pc h

/-- Fetching keeps the invariant. -/
theorem State.Inv.fetchInstr {s : State} (h : s.Inv) : (fetchInstr s).2.Inv := by
  obtain ⟨⟨hb, hu, hf⟩, h2, h3, h4, h5, h6⟩ := h
  refine State.Inv.mk ⟨?_, ?_, ?_⟩ ?_ ?_ ?_ ?_ ?_
  · rw [fetchInstr_p]; exact hb
  · rw [fetchInstr_p]; exact hu
  · rw [fetchInstr_fault, fetchInstr_budget]; exact hf
  · unfold Machine.fetchInstr; dsimp only; split <;>
      first | exact fetchByte_legal h2 | exact fetchByte_legal (fetchByte_legal h2) | exact fetchByte_legal (fetchByte_legal (fetchByte_legal h2))
  · rw [fetchInstr_wram]; exact h3
  · rw [fetchInstr_cfg, fetchInstr_prg]; exact h4
  · unfold State.QueueAhead; rw [fetchInstr_wq, fetchInstr_dotsTotal]; exact h5
  · unfold Machine.fetchInstr; dsimp only; split <;>
      first | exact fetchByte_index h6 | exact fetchByte_index (fetchByte_index h6) | exact fetchByte_index (fetchByte_index (fetchByte_index h6))

/-- An instruction keeps the invariant of a machine at a boundary that has not faulted. -/
theorem State.Inv.exec {s t : State} (i : Instr) (h : s.Inv) (hf : s.cpu.fault = none) (hb0 : s.cpu.budget = 0)
    (he : exec i s = .next t) : t.Inv := by
  obtain ⟨⟨hb, hu, -⟩, h2, h3, h4, h5, h6⟩ := h
  by_cases hm : i.mnemonic = .decodeFailure
  · rw [exec_decodeFailure i s hm] at he
    cases he
    exact State.Inv.mk ⟨hb, hu, fun _ => hb0⟩ h2 h3 h4 h5 h6
  · have ef := exec_frame i hm he
    refine State.Inv.mk ⟨(ef.live hb hu).1, (ef.live hb hu).2, fun hx => absurd (ef.fault.trans hf) hx⟩ (ef.ppu h2) (ef.wram h3) ?_ ?_ (ef.pad h6)
    · rw [ef.cfg, ef.prg]; exact h4
    · intro e hm
      rw [ef.dotsTotal]
      rcases ef.wq with hw | ⟨r, b, hw⟩
      · rw [hw] at hm; exact h5 e hm
      · rw [hw, List.mem_append, List.mem_singleton] at hm
        rcases hm with hm | rfl
        · exact h5 e hm
        · exact Nat.le_add_right _ _

end Sys2Proof.Machine
end

