-- ==== Sys2Proof/Laws/PerInstr.lean ====
section
/-! SUPPORT. Laws/PerInstr.lean: statements made once per instruction: the length and the opcode map read what the encoder writes; the cost
table says what the instruction descriptions say. -/

namespace Sys2Proof.Laws.Encoding

/-- The opcode's length is the encoding's (of a decode failure: one byte), and the opcode map reads the instruction back from its
opcode and its operand bytes. -/
def Statement (i : Instr) : Prop :=
  (encode i).length = (if i.mnemonic = .decodeFailure then 1 else opcodeLength i.opcode) ∧
    (i.mnemonic ≠ .decodeFailure →
      ∀ rest : List Byte, opcodeMap i.opcode ((i.mode.bytes ++ rest).getD 0 0) ((i.mode.bytes ++ rest).getD 1 0) = i)

theorem ldaIzx (a : Byte) : Statement (.ldaIzx a) :=
  ⟨(rfl : 2 = opcodeLength 0xA1), fun _ _ => (rfl : opcodeMap 0xA1 a _ = .ldaIzx a)⟩
theorem ldaZp (a : Byte) : Statement (.ldaZp a) :=
  ⟨(rfl : 2 = opcodeLength 0xA5), fun _ _ => (rfl : opcodeMap 0xA5 a _ = .ldaZp a)⟩
theorem ldaImm (a : Byte) : Statement (.ldaImm a) :=
  ⟨(rfl : 2 = opcodeLength 0xA9), fun _ _ => (rfl : opcodeMap 0xA9 a _ = .ldaImm a)⟩
theorem ldaAbs (a : Word) : Statement (.ldaAbs a) :=
  ⟨(rfl : 3 = opcodeLength 0xAD), fun _ _ =>
    (rfl : opcodeMap 0xAD (lowByte a) (highByte a) = .ldaAbs (wordOf (lowByte a) (highByte a))).trans (congrArg Instr.ldaAbs (wordOf_low_high a))⟩
theorem ldaIzy (a : Byte) : Statement (.ldaIzy a) :=
  ⟨(rfl : 2 = opcodeLength 0xB1), fun _ _ => (rfl : opcodeMap 0xB1 a _ = .ldaIzy a)⟩
theorem ldaZpx (a : Byte) : Statement (.ldaZpx a) :=
  ⟨(rfl : 2 = opcodeLength 0xB5), fun _ _ => (rfl : opcodeMap 0xB5 a _ = .ldaZpx a)⟩
theorem ldaAbsy (a : Word) : Statement (.ldaAbsy a) :=
  ⟨(rfl : 3 = opcodeLength 0xB9), fun _ _ =>
    (rfl : opcodeMap 0xB9 (lowByte a) (highByte a) = .ldaAbsy (wordOf (lowByte a) (highByte a))).trans (congrArg Instr.ldaAbsy (wordOf_low_high a))⟩
theorem ldaAbsx (a : Word) : Statement (.ldaAbsx a) :=
  ⟨(rfl : 3 = opcodeLength 0xBD), fun _ _ =>
    (rfl : opcodeMap 0xBD (lowByte a) (highByte a) = .ldaAbsx (wordOf (lowByte a) (highByte a))).trans (congrArg Instr.ldaAbsx (wordOf_low_high a))⟩
theorem ldxImm (a : Byte) : Statement (.ldxImm a) :=
  ⟨(rfl : 2 = opcodeLength 0xA2), fun _ _ => (rfl : opcodeMap 0xA2 a _ = .ldxImm a)⟩
theorem ldxZp (a : Byte) : Statement (.ldxZp a) :=
  ⟨(rfl : 2 = opcodeLength 0xA6), fun _ _ => (rfl : opcodeMap 0xA6 a _ = .ldxZp a)⟩
theorem ldxAbs (a : Word) : Statement (.ldxAbs a) :=
  ⟨(rfl : 3 = opcodeLength 0xAE), fun _ _ =>
    (rfl : opcodeMap 0xAE (lowByte a) (highByte a) = .ldxAbs (wordOf (lowByte a) (highByte a))).trans (congrArg Instr.ldxAbs (wordOf_low_high a))⟩
theorem ldxZpy (a : Byte) : Statement (.ldxZpy a) :=
  ⟨(rfl : 2 = opcodeLength 0xB6), fun _ _ => (rfl : opcodeMap 0xB6 a _ = .ldxZpy a)⟩
theorem ldxAbsy (a : Word) : Statement (.ldxAbsy a) :=
  ⟨(rfl : 3 = opcodeLength 0xBE), fun _ _ =>
    (rfl : opcodeMap 0xBE (lowByte a) (highByte a) = .ldxAbsy (wordOf (lowByte a) (highByte a))).trans (congrArg Instr.ldxAbsy (wordOf_low_high a))⟩
theorem ldyImm (a : Byte) : Statement (.ldyImm a) :=
  ⟨(rfl : 2 = opcodeLength 0xA0), fun _ _ => (rfl : opcodeMap 0xA0 a _ = .ldyImm a)⟩
theorem ldyZp (a : Byte) : Statement (.ldyZp a) :=
  ⟨(rfl : 2 = opcodeLength 0xA4), fun _ _ => (rfl : opcodeMap 0xA4 a _ = .ldyZp a)⟩
theorem ldyAbs (a : Word) : Statement (.ldyAbs a) :=
  ⟨(rfl : 3 = opcodeLength 0xAC), fun _ _ =>
    (rfl : opcodeMap 0xAC (lowByte a) (highByte a) = .ldyAbs (wordOf (lowByte a) (highByte a))).trans (congrArg Instr.ldyAbs (wordOf_low_high a))⟩
theorem ldyZpx (a : Byte) : Statement (.ldyZpx a) :=
  ⟨(rfl : 2 = opcodeLength 0xB4), fun _ _ => (rfl : opcodeMap 0xB4 a _ = .ldyZpx a)⟩
theorem ldyAbsx (a : Word) : Statement (.ldyAbsx a) :=
  ⟨(rfl : 3 = opcodeLength 0xBC), fun _ _ =>
    (rfl : opcodeMap 0xBC (lowByte a) (highByte a) = .ldyAbsx (wordOf (lowByte a) (highByte a))).trans (congrArg Instr.ldyAbsx (wordOf_low_high a))⟩
theorem staIzx (a : Byte) : Statement (.staIzx a) :=
  ⟨(rfl : 2 = opcodeLength 0x81), fun _ _ => (rfl : opcodeMap 0x81 a _ = .staIzx a)⟩
theorem staZp (a : Byte) : Statement (.staZp a) :=
  ⟨(rfl : 2 = opcodeLength 0x85), fun _ _ => (rfl : opcodeMap 0x85 a _ = .staZp a)⟩
theorem staAbs (a : Word) : Statement (.staAbs a) :=
  ⟨(rfl : 3 = opcodeLength 0x8D), fun _ _ =>
    (rfl : opcodeMap 0x8D (lowByte a) (highByte a) = .staAbs (wordOf (lowByte a) (highByte a))).trans (congrArg Instr.staAbs (wordOf_low_high a))⟩
theorem staIzy (a : Byte) : Statement (.staIzy a) :=
  ⟨(rfl : 2 = opcodeLength 0x91), fun _ _ => (rfl : opcodeMap 0x91 a _ = .staIzy a)⟩
theorem staZpx (a : Byte) : Statement (.staZpx a) :=
  ⟨(rfl : 2 = opcodeLength 0x95), fun _ _ => (rfl : opcodeMap 0x95 a _ = .staZpx a)⟩
theorem staAbsy (a : Word) : Statement (.staAbsy a) :=
  ⟨(rfl : 3 = opcodeLength 0x99), fun _ _ =>
    (rfl : opcodeMap 0x99 (lowByte a) (highByte a) = .staAbsy (wordOf (lowByte a) (highByte a))).trans (congrArg Instr.staAbsy (wordOf_low_high a))⟩
theorem staAbsx (a : Word) : Statement (.staAbsx a) :=
  ⟨(rfl : 3 = opcodeLength 0x9D), fun _ _ =>
    (rfl : opcodeMap 0x9D (lowByte a) (highByte a) = .staAbsx (wordOf (lowByte a) (highByte a))).trans (congrArg Instr.staAbsx (wordOf_low_high a))⟩
theorem stxZp (a : Byte) : Statement (.stxZp a) :=
  ⟨(rfl : 2 = opcodeLength 0x86), fun _ _ => (rfl : opcodeMap 0x86 a _ = .stxZp a)⟩
theorem stxAbs (a : Word) : Statement (.stxAbs a) :=
  ⟨(rfl : 3 = opcodeLength 0x8E), fun _ _ =>
    (rfl : opcodeMap 0x8E (lowByte a) (highByte a) = .stxAbs (wordOf (lowByte a) (highByte a))).trans (congrArg Instr.stxAbs (wordOf_low_high a))⟩
theorem stxZpy (a : Byte) : Statement (.stxZpy a) :=
  ⟨(rfl : 2 = opcodeLength 0x96), fun _ _ => (rfl : opcodeMap 0x96 a _ = .stxZpy a)⟩
theorem styZp (a : Byte) : Statement (.styZp a) :=
  ⟨(rfl : 2 = opcodeLength 0x84), fun _ _ => (rfl : opcodeMap 0x84 a _ = .styZp a)⟩
theorem styAbs (a : Word) : Statement (.styAbs a) :=
  ⟨(rfl : 3 = opcodeLength 0x8C), fun _ _ =>
    (rfl : opcodeMap 0x8C (lowByte a) (highByte a) = .styAbs (wordOf (lowByte a) (highByte a))).trans (congrArg Instr.styAbs (wordOf_low_high a))⟩
theorem styZpx (a : Byte) : Statement (.styZpx a) :=
  ⟨(rfl : 2 = opcodeLength 0x94), fun _ _ => (rfl : opcodeMap 0x94 a _ = .styZpx a)⟩
theorem tax : Statement .tax := ⟨(rfl : 1 = opcodeLength 0xAA), fun _ _ => (rfl : opcodeMap 0xAA _ _ = .tax)⟩
theorem tay : Statement .tay := ⟨(rfl : 1 = opcodeLength 0xA8), fun _ _ => (rfl : opcodeMap 0xA8 _ _ = .tay)⟩
theorem txa : Statement .txa := ⟨(rfl : 1 = opcodeLength 0x8A), fun _ _ => (rfl : opcodeMap 0x8A _ _ = .txa)⟩
theorem tya : Statement .tya := ⟨(rfl : 1 = opcodeLength 0x98), fun _ _ => (rfl : opcodeMap 0x98 _ _ = .tya)⟩
theorem tsx : Statement .tsx := ⟨(rfl : 1 = opcodeLength 0xBA), fun _ _ => (rfl : opcodeMap 0xBA _ _ = .tsx)⟩
theorem txs : Statement .txs := ⟨(rfl : 1 = opcodeLength 0x9A), fun _ _ => (rfl : opcodeMap 0x9A _ _ = .txs)⟩
theorem pha : Statement .pha := ⟨(rfl : 1 = opcodeLength 0x48), fun _ _ => (rfl : opcodeMap 0x48 _ _ = .pha)⟩
theorem pla : Statement .pla := ⟨(rfl : 1 = opcodeLength 0x68), fun _ _ => (rfl : opcodeMap 0x68 _ _ = .pla)⟩
theorem php : Statement .php := ⟨(rfl : 1 = opcodeLength 0x08), fun _ _ => (rfl : opcodeMap 0x08 _ _ = .php)⟩
theorem plp : Statement .plp := ⟨(rfl : 1 = opcodeLength 0x28), fun _ _ => (rfl : opcodeMap 0x28 _ _ = .plp)⟩
theorem andIzx (a : Byte) : Statement (.andIzx a) :=
  ⟨(rfl : 2 = opcodeLength 0x21), fun _ _ => (rfl : opcodeMap 0x21 a _ = .andIzx a)⟩
theorem andZp (a : Byte) : Statement (.andZp a) :=
  ⟨(rfl : 2 = opcodeLength 0x25), fun _ _ => (rfl : opcodeMap 0x25 a _ = .andZp a)⟩
theorem andImm (a : Byte) : Statement (.andImm a) :=
  ⟨(rfl : 2 = opcodeLength 0x29), fun _ _ => (rfl : opcodeMap 0x29 a _ = .andImm a)⟩
theorem andAbs (a : Word) : Statement (.andAbs a) :=
  ⟨(rfl : 3 = opcodeLength 0x2D), fun _ _ =>
    (rfl : opcodeMap 0x2D (lowByte a) (highByte a) = .andAbs (wordOf (lowByte a) (highByte a))).trans (congrArg Instr.andAbs (wordOf_low_high a))⟩
theorem andIzy (a : Byte) : Statement (.andIzy a) :=
  ⟨(rfl : 2 = opcodeLength 0x31), fun _ _ => (rfl : opcodeMap 0x31 a _ = .andIzy a)⟩
theorem andZpx (a : Byte) : Statement (.andZpx a) :=
  ⟨(rfl : 2 = opcodeLength 0x35), fun _ _ => (rfl : opcodeMap 0x35 a _ = .andZpx a)⟩
theorem andAbsy (a : Word) : Statement (.andAbsy a) :=
  ⟨(rfl : 3 = opcodeLength 0x39), fun _ _ =>
    (rfl : opcodeMap 0x39 (lowByte a) (highByte a) = .andAbsy (wordOf (lowByte a) (highByte a))).trans (congrArg Instr.andAbsy (wordOf_low_high a))⟩
theorem andAbsx (a : Word) : Statement (.andAbsx a) :=
  ⟨(rfl : 3 = opcodeLength 0x3D), fun _ _ =>
    (rfl : opcodeMap 0x3D (lowByte a) (highByte a) = .andAbsx (wordOf (lowByte a) (highByte a))).trans (congrArg Instr.andAbsx (wordOf_low_high a))⟩
theorem eorIzx (a : Byte) : Statement (.eorIzx a) :=
  ⟨(rfl : 2 = opcodeLength 0x41), fun _ _ => (rfl : opcodeMap 0x41 a _ = .eorIzx a)⟩
theorem eorZp (a : Byte) : Statement (.eorZp a) :=
  ⟨(rfl : 2 = opcodeLength 0x45), fun _ _ => (rfl : opcodeMap 0x45 a _ = .eorZp a)⟩
theorem eorImm (a : Byte) : Statement (.eorImm a) :=
  ⟨(rfl : 2 = opcodeLength 0x49), fun _ _ => (rfl : opcodeMap 0x49 a _ = .eorImm a)⟩
theorem eorAbs (a : Word) : Statement (.eorAbs a) :=
  ⟨(rfl : 3 = opcodeLength 0x4D), fun _ _ =>
    (rfl : opcodeMap 0x4D (lowByte a) (highByte a) = .eorAbs (wordOf (lowByte a) (highByte a))).trans (congrArg Instr.eorAbs (wordOf_low_high a))⟩
theorem eorIzy (a : Byte) : Statement (.eorIzy a) :=
  ⟨(rfl : 2 = opcodeLength 0x51), fun _ _ => (rfl : opcodeMap 0x51 a _ = .eorIzy a)⟩
theorem eorZpx (a : Byte) : Statement (.eorZpx a) :=
  ⟨(rfl : 2 = opcodeLength 0x55), fun _ _ => (rfl : opcodeMap 0x55 a _ = .eorZpx a)⟩
theorem eorAbsy (a : Word) : Statement (.eorAbsy a) :=
  ⟨(rfl : 3 = opcodeLength 0x59), fun _ _ =>
    (rfl : opcodeMap 0x59 (lowByte a) (highByte a) = .eorAbsy (wordOf (lowByte a) (highByte a))).trans (congrArg Instr.eorAbsy (wordOf_low_high a))⟩
theorem eorAbsx (a : Word) : Statement (.eorAbsx a) :=
  ⟨(rfl : 3 = opcodeLength 0x5D), fun _ _ =>
    (rfl : opcodeMap 0x5D (lowByte a) (highByte a) = .eorAbsx (wordOf (lowByte a) (highByte a))).trans (congrArg Instr.eorAbsx (wordOf_low_high a))⟩
theorem oraIzx (a : Byte) : Statement (.oraIzx a) :=
  ⟨(rfl : 2 = opcodeLength 0x01), fun _ _ => (rfl : opcodeMap 0x01 a _ = .oraIzx a)⟩
theorem oraZp (a : Byte) : Statement (.oraZp a) :=
  ⟨(rfl : 2 = opcodeLength 0x05), fun _ _ => (rfl : opcodeMap 0x05 a _ = .oraZp a)⟩
theorem oraImm (a : Byte) : Statement (.oraImm a) :=
  ⟨(rfl : 2 = opcodeLength 0x09), fun _ _ => (rfl : opcodeMap 0x09 a _ = .oraImm a)⟩
theorem oraAbs (a : Word) : Statement (.oraAbs a) :=
  ⟨(rfl : 3 = opcodeLength 0x0D), fun _ _ =>
    (rfl : opcodeMap 0x0D (lowByte a) (highByte a) = .oraAbs (wordOf (lowByte a) (highByte a))).trans (congrArg Instr.oraAbs (wordOf_low_high a))⟩
theorem oraIzy (a : Byte) : Statement (.oraIzy a) :=
  ⟨(rfl : 2 = opcodeLength 0x11), fun _ _ => (rfl : opcodeMap 0x11 a _ = .oraIzy a)⟩
theorem oraZpx (a : Byte) : Statement (.oraZpx a) :=
  ⟨(rfl : 2 = opcodeLength 0x15), fun _ _ => (rfl : opcodeMap 0x15 a _ = .oraZpx a)⟩
theorem oraAbsy (a : Word) : Statement (.oraAbsy a) :=
  ⟨(rfl : 3 = opcodeLength 0x19), fun _ _ =>
    (rfl : opcodeMap 0x19 (lowByte a) (highByte a) = .oraAbsy (wordOf (lowByte a) (highByte a))).trans (congrArg Instr.oraAbsy (wordOf_low_high a))⟩
theorem oraAbsx (a : Word) : Statement (.oraAbsx a) :=
  ⟨(rfl : 3 = opcodeLength 0x1D), fun _ _ =>
    (rfl : opcodeMap 0x1D (lowByte a) (highByte a) = .oraAbsx (wordOf (lowByte a) (highByte a))).trans (congrArg Instr.oraAbsx (wordOf_low_high a))⟩
theorem bitZp (a : Byte) : Statement (.bitZp a) :=
  ⟨(rfl : 2 = opcodeLength 0x24), fun _ _ => (rfl : opcodeMap 0x24 a _ = .bitZp a)⟩
theorem bitAbs (a : Word) : Statement (.bitAbs a) :=
  ⟨(rfl : 3 = opcodeLength 0x2C), fun _ _ =>
    (rfl : opcodeMap 0x2C (lowByte a) (highByte a) = .bitAbs (wordOf (lowByte a) (highByte a))).trans (congrArg Instr.bitAbs (wordOf_low_high a))⟩
theorem incZp (a : Byte) : Statement (.incZp a) :=
  ⟨(rfl : 2 = opcodeLength 0xE6), fun _ _ => (rfl : opcodeMap 0xE6 a _ = .incZp a)⟩
theorem incAbs (a : Word) : Statement (.incAbs a) :=
  ⟨(rfl : 3 = opcodeLength 0xEE), fun _ _ =>
    (rfl : opcodeMap 0xEE (lowByte a) (highByte a) = .incAbs (wordOf (lowByte a) (highByte a))).trans (congrArg Instr.incAbs (wordOf_low_high a))⟩
theorem incZpx (a : Byte) : Statement (.incZpx a) :=
  ⟨(rfl : 2 = opcodeLength 0xF6), fun _ _ => (rfl : opcodeMap 0xF6 a _ = .incZpx a)⟩
theorem incAbsx (a : Word) : Statement (.incAbsx a) :=
  ⟨(rfl : 3 = opcodeLength 0xFE), fun _ _ =>
    (rfl : opcodeMap 0xFE (lowByte a) (highByte a) = .incAbsx (wordOf (lowByte a) (highByte a))).trans (congrArg Instr.incAbsx (wordOf_low_high a))⟩
theorem decZp (a : Byte) : Statement (.decZp a) :=
  ⟨(rfl : 2 = opcodeLength 0xC6), fun _ _ => (rfl : opcodeMap 0xC6 a _ = .decZp a)⟩
theorem decAbs (a : Word) : Statement (.decAbs a) :=
  ⟨(rfl : 3 = opcodeLength 0xCE), fun _ _ =>
    (rfl : opcodeMap 0xCE (lowByte a) (highByte a) = .decAbs (wordOf (lowByte a) (highByte a))).trans (congrArg Instr.decAbs (wordOf_low_high a))⟩
theorem decZpx (a : Byte) : Statement (.decZpx a) :=
  ⟨(rfl : 2 = opcodeLength 0xD6), fun _ _ => (rfl : opcodeMap 0xD6 a _ = .decZpx a)⟩
theorem decAbsx (a : Word) : Statement (.decAbsx a) :=
  ⟨(rfl : 3 = opcodeLength 0xDE), fun _ _ =>
    (rfl : opcodeMap 0xDE (lowByte a) (highByte a) = .decAbsx (wordOf (lowByte a) (highByte a))).trans (congrArg Instr.decAbsx (wordOf_low_high a))⟩
theorem inx : Statement .inx := ⟨(rfl : 1 = opcodeLength 0xE8), fun _ _ => (rfl : opcodeMap 0xE8 _ _ = .inx)⟩
theorem dex : Statement .dex := ⟨(rfl : 1 = opcodeLength 0xCA), fun _ _ => (rfl : opcodeMap 0xCA _ _ = .dex)⟩
theorem iny : Statement .iny := ⟨(rfl : 1 = opcodeLength 0xC8), fun _ _ => (rfl : opcodeMap 0xC8 _ _ = .iny)⟩
theorem dey : Statement .dey := ⟨(rfl : 1 = opcodeLength 0x88), fun _ _ => (rfl : opcodeMap 0x88 _ _ = .dey)⟩
theorem aslZp (a : Byte) : Statement (.aslZp a) :=
  ⟨(rfl : 2 = opcodeLength 0x06), fun _ _ => (rfl : opcodeMap 0x06 a _ = .aslZp a)⟩
theorem aslAcc : Statement .aslAcc := ⟨(rfl : 1 = opcodeLength 0x0A), fun _ _ => (rfl : opcodeMap 0x0A _ _ = .aslAcc)⟩
theorem aslAbs (a : Word) : Statement (.aslAbs a) :=
  ⟨(rfl : 3 = opcodeLength 0x0E), fun _ _ =>
    (rfl : opcodeMap 0x0E (lowByte a) (highByte a) = .aslAbs (wordOf (lowByte a) (highByte a))).trans (congrArg Instr.aslAbs (wordOf_low_high a))⟩
theorem aslZpx (a : Byte) : Statement (.aslZpx a) :=
  ⟨(rfl : 2 = opcodeLength 0x16), fun _ _ => (rfl : opcodeMap 0x16 a _ = .aslZpx a)⟩
theorem aslAbsx (a : Word) : Statement (.aslAbsx a) :=
  ⟨(rfl : 3 = opcodeLength 0x1E), fun _ _ =>
    (rfl : opcodeMap 0x1E (lowByte a) (highByte a) = .aslAbsx (wordOf (lowByte a) (highByte a))).trans (congrArg Instr.aslAbsx (wordOf_low_high a))⟩
theorem lsrZp (a : Byte) : Statement (.lsrZp a) :=
  ⟨(rfl : 2 = opcodeLength 0x46), fun _ _ => (rfl : opcodeMap 0x46 a _ = .lsrZp a)⟩
theorem lsrAcc : Statement .lsrAcc := ⟨(rfl : 1 = opcodeLength 0x4A), fun _ _ => (rfl : opcodeMap 0x4A _ _ = .lsrAcc)⟩
theorem lsrAbs (a : Word) : Statement (.lsrAbs a) :=
  ⟨(rfl : 3 = opcodeLength 0x4E), fun _ _ =>
    (rfl : opcodeMap 0x4E (lowByte a) (highByte a) = .lsrAbs (wordOf (lowByte a) (highByte a))).trans (congrArg Instr.lsrAbs (wordOf_low_high a))⟩
theorem lsrZpx (a : Byte) : Statement (.lsrZpx a) :=
  ⟨(rfl : 2 = opcodeLength 0x56), fun _ _ => (rfl : opcodeMap 0x56 a _ = .lsrZpx a)⟩
theorem lsrAbsx (a : Word) : Statement (.lsrAbsx a) :=
  ⟨(rfl : 3 = opcodeLength 0x5E), fun _ _ =>
    (rfl : opcodeMap 0x5E (lowByte a) (highByte a) = .lsrAbsx (wordOf (lowByte a) (highByte a))).trans (congrArg Instr.lsrAbsx (wordOf_low_high a))⟩
theorem rolZp (a : Byte) : Statement (.rolZp a) :=
  ⟨(rfl : 2 = opcodeLength 0x26), fun _ _ => (rfl : opcodeMap 0x26 a _ = .rolZp a)⟩
theorem rolAcc : Statement .rolAcc := ⟨(rfl : 1 = opcodeLength 0x2A), fun _ _ => (rfl : opcodeMap 0x2A _ _ = .rolAcc)⟩
theorem rolAbs (a : Word) : Statement (.rolAbs a) :=
  ⟨(rfl : 3 = opcodeLength 0x2E), fun _ _ =>
    (rfl : opcodeMap 0x2E (lowByte a) (highByte a) = .rolAbs (wordOf (lowByte a) (highByte a))).trans (congrArg Instr.rolAbs (wordOf_low_high a))⟩
theorem rolZpx (a : Byte) : Statement (.rolZpx a) :=
  ⟨(rfl : 2 = opcodeLength 0x36), fun _ _ => (rfl : opcodeMap 0x36 a _ = .rolZpx a)⟩
theorem rolAbsx (a : Word) : Statement (.rolAbsx a) :=
  ⟨(rfl : 3 = opcodeLength 0x3E), fun _ _ =>
    (rfl : opcodeMap 0x3E (lowByte a) (highByte a) = .rolAbsx (wordOf (lowByte a) (highByte a))).trans (congrArg Instr.rolAbsx (wordOf_low_high a))⟩
theorem rorZp (a : Byte) : Statement (.rorZp a) :=
  ⟨(rfl : 2 = opcodeLength 0x66), fun _ _ => (rfl : opcodeMap 0x66 a _ = .rorZp a)⟩
theorem rorAcc : Statement .rorAcc := ⟨(rfl : 1 = opcodeLength 0x6A), fun _ _ => (rfl : opcodeMap 0x6A _ _ = .rorAcc)⟩
theorem rorAbs (a : Word) : Statement (.rorAbs a) :=
  ⟨(rfl : 3 = opcodeLength 0x6E), fun _ _ =>
    (rfl : opcodeMap 0x6E (lowByte a) (highByte a) = .rorAbs (wordOf (lowByte a) (highByte a))).trans (congrArg Instr.rorAbs (wordOf_low_high a))⟩
theorem rorZpx (a : Byte) : Statement (.rorZpx a) :=
  ⟨(rfl : 2 = opcodeLength 0x76), fun _ _ => (rfl : opcodeMap 0x76 a _ = .rorZpx a)⟩
theorem rorAbsx (a : Word) : Statement (.rorAbsx a) :=
  ⟨(rfl : 3 = opcodeLength 0x7E), fun _ _ =>
    (rfl : opcodeMap 0x7E (lowByte a) (highByte a) = .rorAbsx (wordOf (lowByte a) (highByte a))).trans (congrArg Instr.rorAbsx (wordOf_low_high a))⟩
theorem adcIzx (a : Byte) : Statement (.adcIzx a) :=
  ⟨(rfl : 2 = opcodeLength 0x61), fun _ _ => (rfl : opcodeMap 0x61 a _ = .adcIzx a)⟩
theorem adcZp (a : Byte) : Statement (.adcZp a) :=
  ⟨(rfl : 2 = opcodeLength 0x65), fun _ _ => (rfl : opcodeMap 0x65 a _ = .adcZp a)⟩
theorem adcImm (a : Byte) : Statement (.adcImm a) :=
  ⟨(rfl : 2 = opcodeLength 0x69), fun _ _ => (rfl : opcodeMap 0x69 a _ = .adcImm a)⟩
theorem adcAbs (a : Word) : Statement (.adcAbs a) :=
  ⟨(rfl : 3 = opcodeLength 0x6D), fun _ _ =>
    (rfl : opcodeMap 0x6D (lowByte a) (highByte a) = .adcAbs (wordOf (lowByte a) (highByte a))).trans (congrArg Instr.adcAbs (wordOf_low_high a))⟩
theorem adcIzy (a : Byte) : Statement (.adcIzy a) :=
  ⟨(rfl : 2 = opcodeLength 0x71), fun _ _ => (rfl : opcodeMap 0x71 a _ = .adcIzy a)⟩
theorem adcZpx (a : Byte) : Statement (.adcZpx a) :=
  ⟨(rfl : 2 = opcodeLength 0x75), fun _ _ => (rfl : opcodeMap 0x75 a _ = .adcZpx a)⟩
theorem adcAbsy (a : Word) : Statement (.adcAbsy a) :=
  ⟨(rfl : 3 = opcodeLength 0x79), fun _ _ =>
    (rfl : opcodeMap 0x79 (lowByte a) (highByte a) = .adcAbsy (wordOf (lowByte a) (highByte a))).trans (congrArg Instr.adcAbsy (wordOf_low_high a))⟩
theorem adcAbsx (a : Word) : Statement (.adcAbsx a) :=
  ⟨(rfl : 3 = opcodeLength 0x7D), fun _ _ =>
    (rfl : opcodeMap 0x7D (lowByte a) (highByte a) = .adcAbsx (wordOf (lowByte a) (highByte a))).trans (congrArg Instr.adcAbsx (wordOf_low_high a))⟩
theorem sbcIzx (a : Byte) : Statement (.sbcIzx a) :=
  ⟨(rfl : 2 = opcodeLength 0xE1), fun _ _ => (rfl : opcodeMap 0xE1 a _ = .sbcIzx a)⟩
theorem sbcZp (a : Byte) : Statement (.sbcZp a) :=
  ⟨(rfl : 2 = opcodeLength 0xE5), fun _ _ => (rfl : opcodeMap 0xE5 a _ = .sbcZp a)⟩
theorem sbcImm (a : Byte) : Statement (.sbcImm a) :=
  ⟨(rfl : 2 = opcodeLength 0xE9), fun _ _ => (rfl : opcodeMap 0xE9 a _ = .sbcImm a)⟩
theorem sbcAbs (a : Word) : Statement (.sbcAbs a) :=
  ⟨(rfl : 3 = opcodeLength 0xED), fun _ _ =>
    (rfl : opcodeMap 0xED (lowByte a) (highByte a) = .sbcAbs (wordOf (lowByte a) (highByte a))).trans (congrArg Instr.sbcAbs (wordOf_low_high a))⟩
theorem sbcIzy (a : Byte) : Statement (.sbcIzy a) :=
  ⟨(rfl : 2 = opcodeLength 0xF1), fun _ _ => (rfl : opcodeMap 0xF1 a _ = .sbcIzy a)⟩
theorem sbcZpx (a : Byte) : Statement (.sbcZpx a) :=
  ⟨(rfl : 2 = opcodeLength 0xF5), fun _ _ => (rfl : opcodeMap 0xF5 a _ = .sbcZpx a)⟩
theorem sbcAbsy (a : Word) : Statement (.sbcAbsy a) :=
  ⟨(rfl : 3 = opcodeLength 0xF9), fun _ _ =>
    (rfl : opcodeMap 0xF9 (lowByte a) (highByte a) = .sbcAbsy (wordOf (lowByte a) (highByte a))).trans (congrArg Instr.sbcAbsy (wordOf_low_high a))⟩
theorem sbcAbsx (a : Word) : Statement (.sbcAbsx a) :=
  ⟨(rfl : 3 = opcodeLength 0xFD), fun _ _ =>
    (rfl : opcodeMap 0xFD (lowByte a) (highByte a) = .sbcAbsx (wordOf (lowByte a) (highByte a))).trans (congrArg Instr.sbcAbsx (wordOf_low_high a))⟩
theorem cmpIzx (a : Byte) : Statement (.cmpIzx a) :=
  ⟨(rfl : 2 = opcodeLength 0xC1), fun _ _ => (rfl : opcodeMap 0xC1 a _ = .cmpIzx a)⟩
theorem cmpZp (a : Byte) : Statement (.cmpZp a) :=
  ⟨(rfl : 2 = opcodeLength 0xC5), fun _ _ => (rfl : opcodeMap 0xC5 a _ = .cmpZp a)⟩
theorem cmpImm (a : Byte) : Statement (.cmpImm a) :=
  ⟨(rfl : 2 = opcodeLength 0xC9), fun _ _ => (rfl : opcodeMap 0xC9 a _ = .cmpImm a)⟩
theorem cmpAbs (a : Word) : Statement (.cmpAbs a) :=
  ⟨(rfl : 3 = opcodeLength 0xCD), fun _ _ =>
    (rfl : opcodeMap 0xCD (lowByte a) (highByte a) = .cmpAbs (wordOf (lowByte a) (highByte a))).trans (congrArg Instr.cmpAbs (wordOf_low_high a))⟩
theorem cmpIzy (a : Byte) : Statement (.cmpIzy a) :=
  ⟨(rfl : 2 = opcodeLength 0xD1), fun _ _ => (rfl : opcodeMap 0xD1 a _ = .cmpIzy a)⟩
theorem cmpZpx (a : Byte) : Statement (.cmpZpx a) :=
  ⟨(rfl : 2 = opcodeLength 0xD5), fun _ _ => (rfl : opcodeMap 0xD5 a _ = .cmpZpx a)⟩
theorem cmpAbsy (a : Word) : Statement (.cmpAbsy a) :=
  ⟨(rfl : 3 = opcodeLength 0xD9), fun _ _ =>
    (rfl : opcodeMap 0xD9 (lowByte a) (highByte a) = .cmpAbsy (wordOf (lowByte a) (highByte a))).trans (congrArg Instr.cmpAbsy (wordOf_low_high a))⟩
theorem cmpAbsx (a : Word) : Statement (.cmpAbsx a) :=
  ⟨(rfl : 3 = opcodeLength 0xDD), fun _ _ =>
    (rfl : opcodeMap 0xDD (lowByte a) (highByte a) = .cmpAbsx (wordOf (lowByte a) (highByte a))).trans (congrArg Instr.cmpAbsx (wordOf_low_high a))⟩
theorem cpxImm (a : Byte) : Statement (.cpxImm a) :=
  ⟨(rfl : 2 = opcodeLength 0xE0), fun _ _ => (rfl : opcodeMap 0xE0 a _ = .cpxImm a)⟩
theorem cpxZp (a : Byte) : Statement (.cpxZp a) :=
  ⟨(rfl : 2 = opcodeLength 0xE4), fun _ _ => (rfl : opcodeMap 0xE4 a _ = .cpxZp a)⟩
theorem cpxAbs (a : Word) : Statement (.cpxAbs a) :=
  ⟨(rfl : 3 = opcodeLength 0xEC), fun _ _ =>
    (rfl : opcodeMap 0xEC (lowByte a) (highByte a) = .cpxAbs (wordOf (lowByte a) (highByte a))).trans (congrArg Instr.cpxAbs (wordOf_low_high a))⟩
theorem cpyImm (a : Byte) : Statement (.cpyImm a) :=
  ⟨(rfl : 2 = opcodeLength 0xC0), fun _ _ => (rfl : opcodeMap 0xC0 a _ = .cpyImm a)⟩
theorem cpyZp (a : Byte) : Statement (.cpyZp a) :=
  ⟨(rfl : 2 = opcodeLength 0xC4), fun _ _ => (rfl : opcodeMap 0xC4 a _ = .cpyZp a)⟩
theorem cpyAbs (a : Word) : Statement (.cpyAbs a) :=
  ⟨(rfl : 3 = opcodeLength 0xCC), fun _ _ =>
    (rfl : opcodeMap 0xCC (lowByte a) (highByte a) = .cpyAbs (wordOf (lowByte a) (highByte a))).trans (congrArg Instr.cpyAbs (wordOf_low_high a))⟩
theorem bpl (a : Byte) : Statement (.bpl a) :=
  ⟨(rfl : 2 = opcodeLength 0x10), fun _ _ => (rfl : opcodeMap 0x10 a _ = .bpl a)⟩
theorem bmi (a : Byte) : Statement (.bmi a) :=
  ⟨(rfl : 2 = opcodeLength 0x30), fun _ _ => (rfl : opcodeMap 0x30 a _ = .bmi a)⟩
theorem bvc (a : Byte) : Statement (.bvc a) :=
  ⟨(rfl : 2 = opcodeLength 0x50), fun _ _ => (rfl : opcodeMap 0x50 a _ = .bvc a)⟩
theorem bvs (a : Byte) : Statement (.bvs a) :=
  ⟨(rfl : 2 = opcodeLength 0x70), fun _ _ => (rfl : opcodeMap 0x70 a _ = .bvs a)⟩
theorem bcc (a : Byte) : Statement (.bcc a) :=
  ⟨(rfl : 2 = opcodeLength 0x90), fun _ _ => (rfl : opcodeMap 0x90 a _ = .bcc a)⟩
theorem bcs (a : Byte) : Statement (.bcs a) :=
  ⟨(rfl : 2 = opcodeLength 0xB0), fun _ _ => (rfl : opcodeMap 0xB0 a _ = .bcs a)⟩
theorem bne (a : Byte) : Statement (.bne a) :=
  ⟨(rfl : 2 = opcodeLength 0xD0), fun _ _ => (rfl : opcodeMap 0xD0 a _ = .bne a)⟩
theorem beq (a : Byte) : Statement (.beq a) :=
  ⟨(rfl : 2 = opcodeLength 0xF0), fun _ _ => (rfl : opcodeMap 0xF0 a _ = .beq a)⟩
theorem jmpAbs (a : Word) : Statement (.jmpAbs a) :=
  ⟨(rfl : 3 = opcodeLength 0x4C), fun _ _ =>
    (rfl : opcodeMap 0x4C (lowByte a) (highByte a) = .jmpAbs (wordOf (lowByte a) (highByte a))).trans (congrArg Instr.jmpAbs (wordOf_low_high a))⟩
theorem jmpInd (a : Word) : Statement (.jmpInd a) :=
  ⟨(rfl : 3 = opcodeLength 0x6C), fun _ _ =>
    (rfl : opcodeMap 0x6C (lowByte a) (highByte a) = .jmpInd (wordOf (lowByte a) (highByte a))).trans (congrArg Instr.jmpInd (wordOf_low_high a))⟩
theorem jsr (a : Word) : Statement (.jsr a) :=
  ⟨(rfl : 3 = opcodeLength 0x20), fun _ _ =>
    (rfl : opcodeMap 0x20 (lowByte a) (highByte a) = .jsr (wordOf (lowByte a) (highByte a))).trans (congrArg Instr.jsr (wordOf_low_high a))⟩
theorem rts : Statement .rts := ⟨(rfl : 1 = opcodeLength 0x60), fun _ _ => (rfl : opcodeMap 0x60 _ _ = .rts)⟩
theorem brk : Statement .brk := ⟨(rfl : 1 = opcodeLength 0x00), fun _ _ => (rfl : opcodeMap 0x00 _ _ = .brk)⟩
theorem rti : Statement .rti := ⟨(rfl : 1 = opcodeLength 0x40), fun _ _ => (rfl : opcodeMap 0x40 _ _ = .rti)⟩
theorem clc : Statement .clc := ⟨(rfl : 1 = opcodeLength 0x18), fun _ _ => (rfl : opcodeMap 0x18 _ _ = .clc)⟩
theorem sec : Statement .sec := ⟨(rfl : 1 = opcodeLength 0x38), fun _ _ => (rfl : opcodeMap 0x38 _ _ = .sec)⟩
theorem cli : Statement .cli := ⟨(rfl : 1 = opcodeLength 0x58), fun _ _ => (rfl : opcodeMap 0x58 _ _ = .cli)⟩
theorem sei : Statement .sei := ⟨(rfl : 1 = opcodeLength 0x78), fun _ _ => (rfl : opcodeMap 0x78 _ _ = .sei)⟩
theorem clv : Statement .clv := ⟨(rfl : 1 = opcodeLength 0xB8), fun _ _ => (rfl : opcodeMap 0xB8 _ _ = .clv)⟩
theorem cld : Statement .cld := ⟨(rfl : 1 = opcodeLength 0xD8), fun _ _ => (rfl : opcodeMap 0xD8 _ _ = .cld)⟩
theorem sed : Statement .sed := ⟨(rfl : 1 = opcodeLength 0xF8), fun _ _ => (rfl : opcodeMap 0xF8 _ _ = .sed)⟩
theorem nop : Statement .nop := ⟨(rfl : 1 = opcodeLength 0xEA), fun _ _ => (rfl : opcodeMap 0xEA _ _ = .nop)⟩
theorem iscIzx (a : Byte) : Statement (.iscIzx a) :=
  ⟨(rfl : 2 = opcodeLength 0xE3), fun _ _ => (rfl : opcodeMap 0xE3 a _ = .iscIzx a)⟩
theorem iscZp (a : Byte) : Statement (.iscZp a) :=
  ⟨(rfl : 2 = opcodeLength 0xE7), fun _ _ => (rfl : opcodeMap 0xE7 a _ = .iscZp a)⟩
theorem iscAbs (a : Word) : Statement (.iscAbs a) :=
  ⟨(rfl : 3 = opcodeLength 0xEF), fun _ _ =>
    (rfl : opcodeMap 0xEF (lowByte a) (highByte a) = .iscAbs (wordOf (lowByte a) (highByte a))).trans (congrArg Instr.iscAbs (wordOf_low_high a))⟩
theorem iscIzy (a : Byte) : Statement (.iscIzy a) :=
  ⟨(rfl : 2 = opcodeLength 0xF3), fun _ _ => (rfl : opcodeMap 0xF3 a _ = .iscIzy a)⟩
theorem iscZpx (a : Byte) : Statement (.iscZpx a) :=
  ⟨(rfl : 2 = opcodeLength 0xF7), fun _ _ => (rfl : opcodeMap 0xF7 a _ = .iscZpx a)⟩
theorem iscAbsy (a : Word) : Statement (.iscAbsy a) :=
  ⟨(rfl : 3 = opcodeLength 0xFB), fun _ _ =>
    (rfl : opcodeMap 0xFB (lowByte a) (highByte a) = .iscAbsy (wordOf (lowByte a) (highByte a))).trans (congrArg Instr.iscAbsy (wordOf_low_high a))⟩
theorem iscAbsx (a : Word) : Statement (.iscAbsx a) :=
  ⟨(rfl : 3 = opcodeLength 0xFF), fun _ _ =>
    (rfl : opcodeMap 0xFF (lowByte a) (highByte a) = .iscAbsx (wordOf (lowByte a) (highByte a))).trans (congrArg Instr.iscAbsx (wordOf_low_high a))⟩
theorem decodeFailure (opc : Byte) : Statement (.decodeFailure opc) := ⟨rfl, fun h => absurd rfl h⟩

/-- Of every instruction. -/
theorem every (i : Instr) : Statement i :=
  match i with
  | .ldaIzx a => ldaIzx a
  | .ldaZp a => ldaZp a
  | .ldaImm a => ldaImm a
  | .ldaAbs a => ldaAbs a
  | .ldaIzy a => ldaIzy a
  | .ldaZpx a => ldaZpx a
  | .ldaAbsy a => ldaAbsy a
  | .ldaAbsx a => ldaAbsx a
  | .ldxImm a => ldxImm a
  | .ldxZp a => ldxZp a
  | .ldxAbs a => ldxAbs a
  | .ldxZpy a => ldxZpy a
  | .ldxAbsy a => ldxAbsy a
  | .ldyImm a => ldyImm a
  | .ldyZp a => ldyZp a
  | .ldyAbs a => ldyAbs a
  | .ldyZpx a => ldyZpx a
  | .ldyAbsx a => ldyAbsx a
  | .staIzx a => staIzx a
  | .staZp a => staZp a
  | .staAbs a => staAbs a
  | .staIzy a => staIzy a
  | .staZpx a => staZpx a
  | .staAbsy a => staAbsy a
  | .staAbsx a => staAbsx a
  | .stxZp a => stxZp a
  | .stxAbs a => stxAbs a
  | .stxZpy a => stxZpy a
  | .styZp a => styZp a
  | .styAbs a => styAbs a
  | .styZpx a => styZpx a
  | .tax => tax
  | .tay => tay
  | .txa => txa
  | .tya => tya
  | .tsx => tsx
  | .txs => txs
  | .pha => pha
  | .pla => pla
  | .php => php
  | .plp => plp
  | .andIzx a => andIzx a
  | .andZp a => andZp a
  | .andImm a => andImm a
  | .andAbs a => andAbs a
  | .andIzy a => andIzy a
  | .andZpx a => andZpx a
  | .andAbsy a => andAbsy a
  | .andAbsx a => andAbsx a
  | .eorIzx a => eorIzx a
  | .eorZp a => eorZp a
  | .eorImm a => eorImm a
  | .eorAbs a => eorAbs a
  | .eorIzy a => eorIzy a
  | .eorZpx a => eorZpx a
  | .eorAbsy a => eorAbsy a
  | .eorAbsx a => eorAbsx a
  | .oraIzx a => oraIzx a
  | .oraZp a => oraZp a
  | .oraImm a => oraImm a
  | .oraAbs a => oraAbs a
  | .oraIzy a => oraIzy a
  | .oraZpx a => oraZpx a
  | .oraAbsy a => oraAbsy a
  | .oraAbsx a => oraAbsx a
  | .bitZp a => bitZp a
  | .bitAbs a => bitAbs a
  | .incZp a => incZp a
  | .incAbs a => incAbs a
  | .incZpx a => incZpx a
  | .incAbsx a => incAbsx a
  | .decZp a => decZp a
  | .decAbs a => decAbs a
  | .decZpx a => decZpx a
  | .decAbsx a => decAbsx a
  | .inx => inx
  | .dex => dex
  | .iny => iny
  | .dey => dey
  | .aslZp a => aslZp a
  | .aslAcc => aslAcc
  | .aslAbs a => aslAbs a
  | .aslZpx a => aslZpx a
  | .aslAbsx a => aslAbsx a
  | .lsrZp a => lsrZp a
  | .lsrAcc => lsrAcc
  | .lsrAbs a => lsrAbs a
  | .lsrZpx a => lsrZpx a
  | .lsrAbsx a => lsrAbsx a
  | .rolZp a => rolZp a
  | .rolAcc => rolAcc
  | .rolAbs a => rolAbs a
  | .rolZpx a => rolZpx a
  | .rolAbsx a => rolAbsx a
  | .rorZp a => rorZp a
  | .rorAcc => rorAcc
  | .rorAbs a => rorAbs a
  | .rorZpx a => rorZpx a
  | .rorAbsx a => rorAbsx a
  | .adcIzx a => adcIzx a
  | .adcZp a => adcZp a
  | .adcImm a => adcImm a
  | .adcAbs a => adcAbs a
  | .adcIzy a => adcIzy a
  | .adcZpx a => adcZpx a
  | .adcAbsy a => adcAbsy a
  | .adcAbsx a => adcAbsx a
  | .sbcIzx a => sbcIzx a
  | .sbcZp a => sbcZp a
  | .sbcImm a => sbcImm a
  | .sbcAbs a => sbcAbs a
  | .sbcIzy a => sbcIzy a
  | .sbcZpx a => sbcZpx a
  | .sbcAbsy a => sbcAbsy a
  | .sbcAbsx a => sbcAbsx a
  | .cmpIzx a => cmpIzx a
  | .cmpZp a => cmpZp a
  | .cmpImm a => cmpImm a
  | .cmpAbs a => cmpAbs a
  | .cmpIzy a => cmpIzy a
  | .cmpZpx a => cmpZpx a
  | .cmpAbsy a => cmpAbsy a
  | .cmpAbsx a => cmpAbsx a
  | .cpxImm a => cpxImm a
  | .cpxZp a => cpxZp a
  | .cpxAbs a => cpxAbs a
  | .cpyImm a => cpyImm a
  | .cpyZp a => cpyZp a
  | .cpyAbs a => cpyAbs a
  | .bpl a => bpl a
  | .bmi a => bmi a
  | .bvc a => bvc a
  | .bvs a => bvs a
  | .bcc a => bcc a
  | .bcs a => bcs a
  | .bne a => bne a
  | .beq a => beq a
  | .jmpAbs a => jmpAbs a
  | .jmpInd a => jmpInd a
  | .jsr a => jsr a
  | .rts => rts
  | .brk => brk
  | .rti => rti
  | .clc => clc
  | .sec => sec
  | .cli => cli
  | .sei => sei
  | .clv => clv
  | .cld => cld
  | .sed => sed
  | .nop => nop
  | .iscIzx a => iscIzx a
  | .iscZp a => iscZp a
  | .iscAbs a => iscAbs a
  | .iscIzy a => iscIzy a
  | .iscZpx a => iscZpx a
  | .iscAbsy a => iscAbsy a
  | .iscAbsx a => iscAbsx a
  | .decodeFailure opc => decodeFailure opc

end Sys2Proof.Laws.Encoding

namespace Sys2Proof.Laws.Cost

open Sys2Proof.Machine

/-- Whether an indexed read of a mode can take the page penalty (spec/30 R341). -/
def paged : Mode → Bool
  | .absx _ => true
  | .absy _ => true
  | .izy _ => true
  | .imm _ => false
  | .zp _ => false
  | .zpx _ => false
  | .zpy _ => false
  | .izx _ => false
  | .abs _ => false
  | .implied => false
  | .acc => false
  | .ind _ => false
  | .rel _ => false

/-- The cost the instruction descriptions give, by mnemonic and mode. -/
def described (i : Instr) : Cost :=
  match i.mnemonic with
  | .lda => ⟨readCycles i.mode, paged i.mode⟩
  | .ldx => ⟨readCycles i.mode, paged i.mode⟩
  | .ldy => ⟨readCycles i.mode, paged i.mode⟩
  | .sta => ⟨storeCycles i.mode, false⟩
  | .stx => ⟨storeCycles i.mode, false⟩
  | .sty => ⟨storeCycles i.mode, false⟩
  | .tax => ⟨2, false⟩
  | .tay => ⟨2, false⟩
  | .txa => ⟨2, false⟩
  | .tya => ⟨2, false⟩
  | .tsx => ⟨2, false⟩
  | .txs => ⟨2, false⟩
  | .pha => ⟨3, false⟩
  | .pla => ⟨4, false⟩
  | .php => ⟨3, false⟩
  | .plp => ⟨4, false⟩
  | .and => ⟨readCycles i.mode, paged i.mode⟩
  | .eor => ⟨readCycles i.mode, paged i.mode⟩
  | .ora => ⟨readCycles i.mode, paged i.mode⟩
  | .bit => ⟨readCycles i.mode, paged i.mode⟩
  | .inc => ⟨modifyCycles i.mode, false⟩
  | .dec => ⟨modifyCycles i.mode, false⟩
  | .inx => ⟨2, false⟩
  | .dex => ⟨2, false⟩
  | .iny => ⟨2, false⟩
  | .dey => ⟨2, false⟩
  | .asl => ⟨modifyCycles i.mode, false⟩
  | .lsr => ⟨modifyCycles i.mode, false⟩
  | .rol => ⟨modifyCycles i.mode, false⟩
  | .ror => ⟨modifyCycles i.mode, false⟩
  | .adc => ⟨readCycles i.mode, paged i.mode⟩
  | .sbc => ⟨readCycles i.mode, paged i.mode⟩
  | .cmp => ⟨readCycles i.mode, paged i.mode⟩
  | .cpx => ⟨readCycles i.mode, paged i.mode⟩
  | .cpy => ⟨readCycles i.mode, paged i.mode⟩
  | .bpl => ⟨2, false⟩
  | .bmi => ⟨2, false⟩
  | .bvc => ⟨2, false⟩
  | .bvs => ⟨2, false⟩
  | .bcc => ⟨2, false⟩
  | .bcs => ⟨2, false⟩
  | .bne => ⟨2, false⟩
  | .beq => ⟨2, false⟩
  | .jmp => if i.mode.bytes.length = 2 ∧ i.opcode = 0x4C then ⟨3, false⟩ else ⟨5, false⟩
  | .jsr => ⟨6, false⟩
  | .rts => ⟨6, false⟩
  | .brk => ⟨7, false⟩
  | .rti => ⟨6, false⟩
  | .clc => ⟨2, false⟩
  | .sec => ⟨2, false⟩
  | .cli => ⟨2, false⟩
  | .sei => ⟨2, false⟩
  | .clv => ⟨2, false⟩
  | .cld => ⟨2, false⟩
  | .sed => ⟨2, false⟩
  | .nop => ⟨2, false⟩
  | .isc => ⟨modifyCycles i.mode, false⟩
  | .decodeFailure => ⟨0, false⟩

/-- The cost table's row is the descriptions'; no instruction costs less than two cycles. -/
def Statement (i : Instr) : Prop :=
  i.mnemonic ≠ .decodeFailure → tableCost i.opcode = described i ∧ 2 ≤ (tableCost i.opcode).base

theorem ldaIzx (a : Byte) : Statement (.ldaIzx a) := fun _ =>
  have h : tableCost 0xA1 = ⟨6, false⟩ := rfl
  ⟨h, h ▸ (by decide : 2 ≤ 6)⟩
theorem ldaZp (a : Byte) : Statement (.ldaZp a) := fun _ =>
  have h : tableCost 0xA5 = ⟨3, false⟩ := rfl
  ⟨h, h ▸ (by decide : 2 ≤ 3)⟩
theorem ldaImm (a : Byte) : Statement (.ldaImm a) := fun _ =>
  have h : tableCost 0xA9 = ⟨2, false⟩ := rfl
  ⟨h, h ▸ (by decide : 2 ≤ 2)⟩
theorem ldaAbs (a : Word) : Statement (.ldaAbs a) := fun _ =>
  have h : tableCost 0xAD = ⟨4, false⟩ := rfl
  ⟨h, h ▸ (by decide : 2 ≤ 4)⟩
theorem ldaIzy (a : Byte) : Statement (.ldaIzy a) := fun _ =>
  have h : tableCost 0xB1 = ⟨5, true⟩ := rfl
  ⟨h, h ▸ (by decide : 2 ≤ 5)⟩
theorem ldaZpx (a : Byte) : Statement (.ldaZpx a) := fun _ =>
  have h : tableCost 0xB5 = ⟨4, false⟩ := rfl
  ⟨h, h ▸ (by decide : 2 ≤ 4)⟩
theorem ldaAbsy (a : Word) : Statement (.ldaAbsy a) := fun _ =>
  have h : tableCost 0xB9 = ⟨4, true⟩ := rfl
  ⟨h, h ▸ (by decide : 2 ≤ 4)⟩
theorem ldaAbsx (a : Word) : Statement (.ldaAbsx a) := fun _ =>
  have h : tableCost 0xBD = ⟨4, true⟩ := rfl
  ⟨h, h ▸ (by decide : 2 ≤ 4)⟩
theorem ldxImm (a : Byte) : Statement (.ldxImm a) := fun _ =>
  have h : tableCost 0xA2 = ⟨2, false⟩ := rfl
  ⟨h, h ▸ (by decide : 2 ≤ 2)⟩
theorem ldxZp (a : Byte) : Statement (.ldxZp a) := fun _ =>
  have h : tableCost 0xA6 = ⟨3, false⟩ := rfl
  ⟨h, h ▸ (by decide : 2 ≤ 3)⟩
theorem ldxAbs (a : Word) : Statement (.ldxAbs a) := fun _ =>
  have h : tableCost 0xAE = ⟨4, false⟩ := rfl
  ⟨h, h ▸ (by decide : 2 ≤ 4)⟩
theorem ldxZpy (a : Byte) : Statement (.ldxZpy a) := fun _ =>
  have h : tableCost 0xB6 = ⟨4, false⟩ := rfl
  ⟨h, h ▸ (by decide : 2 ≤ 4)⟩
theorem ldxAbsy (a : Word) : Statement (.ldxAbsy a) := fun _ =>
  have h : tableCost 0xBE = ⟨4, true⟩ := rfl
  ⟨h, h ▸ (by decide : 2 ≤ 4)⟩
theorem ldyImm (a : Byte) : Statement (.ldyImm a) := fun _ =>
  have h : tableCost 0xA0 = ⟨2, false⟩ := rfl
  ⟨h, h ▸ (by decide : 2 ≤ 2)⟩
theorem ldyZp (a : Byte) : Statement (.ldyZp a) := fun _ =>
  have h : tableCost 0xA4 = ⟨3, false⟩ := rfl
  ⟨h, h ▸ (by decide : 2 ≤ 3)⟩
theorem ldyAbs (a : Word) : Statement (.ldyAbs a) := fun _ =>
  have h : tableCost 0xAC = ⟨4, false⟩ := rfl
  ⟨h, h ▸ (by decide : 2 ≤ 4)⟩
theorem ldyZpx (a : Byte) : Statement (.ldyZpx a) := fun _ =>
  have h : tableCost 0xB4 = ⟨4, false⟩ := rfl
  ⟨h, h ▸ (by decide : 2 ≤ 4)⟩
theorem ldyAbsx (a : Word) : Statement (.ldyAbsx a) := fun _ =>
  have h : tableCost 0xBC = ⟨4, true⟩ := rfl
  ⟨h, h ▸ (by decide : 2 ≤ 4)⟩
theorem staIzx (a : Byte) : Statement (.staIzx a) := fun _ =>
  have h : tableCost 0x81 = ⟨6, false⟩ := rfl
  ⟨h, h ▸ (by decide : 2 ≤ 6)⟩
theorem staZp (a : Byte) : Statement (.staZp a) := fun _ =>
  have h : tableCost 0x85 = ⟨3, false⟩ := rfl
  ⟨h, h ▸ (by decide : 2 ≤ 3)⟩
theorem staAbs (a : Word) : Statement (.staAbs a) := fun _ =>
  have h : tableCost 0x8D = ⟨4, false⟩ := rfl
  ⟨h, h ▸ (by decide : 2 ≤ 4)⟩
theorem staIzy (a : Byte) : Statement (.staIzy a) := fun _ =>
  have h : tableCost 0x91 = ⟨6, false⟩ := rfl
  ⟨h, h ▸ (by decide : 2 ≤ 6)⟩
theorem staZpx (a : Byte) : Statement (.staZpx a) := fun _ =>
  have h : tableCost 0x95 = ⟨4, false⟩ := rfl
  ⟨h, h ▸ (by decide : 2 ≤ 4)⟩
theorem staAbsy (a : Word) : Statement (.staAbsy a) := fun _ =>
  have h : tableCost 0x99 = ⟨5, false⟩ := rfl
  ⟨h, h ▸ (by decide : 2 ≤ 5)⟩
theorem staAbsx (a : Word) : Statement (.staAbsx a) := fun _ =>
  have h : tableCost 0x9D = ⟨5, false⟩ := rfl
  ⟨h, h ▸ (by decide : 2 ≤ 5)⟩
theorem stxZp (a : Byte) : Statement (.stxZp a) := fun _ =>
  have h : tableCost 0x86 = ⟨3, false⟩ := rfl
  ⟨h, h ▸ (by decide : 2 ≤ 3)⟩
theorem stxAbs (a : Word) : Statement (.stxAbs a) := fun _ =>
  have h : tableCost 0x8E = ⟨4, false⟩ := rfl
  ⟨h, h ▸ (by decide : 2 ≤ 4)⟩
theorem stxZpy (a : Byte) : Statement (.stxZpy a) := fun _ =>
  have h : tableCost 0x96 = ⟨4, false⟩ := rfl
  ⟨h, h ▸ (by decide : 2 ≤ 4)⟩
theorem styZp (a : Byte) : Statement (.styZp a) := fun _ =>
  have h : tableCost 0x84 = ⟨3, false⟩ := rfl
  ⟨h, h ▸ (by decide : 2 ≤ 3)⟩
theorem styAbs (a : Word) : Statement (.styAbs a) := fun _ =>
  have h : tableCost 0x8C = ⟨4, false⟩ := rfl
  ⟨h, h ▸ (by decide : 2 ≤ 4)⟩
theorem styZpx (a : Byte) : Statement (.styZpx a) := fun _ =>
  have h : tableCost 0x94 = ⟨4, false⟩ := rfl
  ⟨h, h ▸ (by decide : 2 ≤ 4)⟩
theorem tax : Statement .tax := fun _ =>
  have h : tableCost 0xAA = ⟨2, false⟩ := rfl
  ⟨h, h ▸ (by decide : 2 ≤ 2)⟩
theorem tay : Statement .tay := fun _ =>
  have h : tableCost 0xA8 = ⟨2, false⟩ := rfl
  ⟨h, h ▸ (by decide : 2 ≤ 2)⟩
theorem txa : Statement .txa := fun _ =>
  have h : tableCost 0x8A = ⟨2, false⟩ := rfl
  ⟨h, h ▸ (by decide : 2 ≤ 2)⟩
theorem tya : Statement .tya := fun _ =>
  have h : tableCost 0x98 = ⟨2, false⟩ := rfl
  ⟨h, h ▸ (by decide : 2 ≤ 2)⟩
theorem tsx : Statement .tsx := fun _ =>
  have h : tableCost 0xBA = ⟨2, false⟩ := rfl
  ⟨h, h ▸ (by decide : 2 ≤ 2)⟩
theorem txs : Statement .txs := fun _ =>
  have h : tableCost 0x9A = ⟨2, false⟩ := rfl
  ⟨h, h ▸ (by decide : 2 ≤ 2)⟩
theorem pha : Statement .pha := fun _ =>
  have h : tableCost 0x48 = ⟨3, false⟩ := rfl
  ⟨h, h ▸ (by decide : 2 ≤ 3)⟩
theorem pla : Statement .pla := fun _ =>
  have h : tableCost 0x68 = ⟨4, false⟩ := rfl
  ⟨h, h ▸ (by decide : 2 ≤ 4)⟩
theorem php : Statement .php := fun _ =>
  have h : tableCost 0x08 = ⟨3, false⟩ := rfl
  ⟨h, h ▸ (by decide : 2 ≤ 3)⟩
theorem plp : Statement .plp := fun _ =>
  have h : tableCost 0x28 = ⟨4, false⟩ := rfl
  ⟨h, h ▸ (by decide : 2 ≤ 4)⟩
theorem andIzx (a : Byte) : Statement (.andIzx a) := fun _ =>
  have h : tableCost 0x21 = ⟨6, false⟩ := rfl
  ⟨h, h ▸ (by decide : 2 ≤ 6)⟩
theorem andZp (a : Byte) : Statement (.andZp a) := fun _ =>
  have h : tableCost 0x25 = ⟨3, false⟩ := rfl
  ⟨h, h ▸ (by decide : 2 ≤ 3)⟩
theorem andImm (a : Byte) : Statement (.andImm a) := fun _ =>
  have h : tableCost 0x29 = ⟨2, false⟩ := rfl
  ⟨h, h ▸ (by decide : 2 ≤ 2)⟩
theorem andAbs (a : Word) : Statement (.andAbs a) := fun _ =>
  have h : tableCost 0x2D = ⟨4, false⟩ := rfl
  ⟨h, h ▸ (by decide : 2 ≤ 4)⟩
theorem andIzy (a : Byte) : Statement (.andIzy a) := fun _ =>
  have h : tableCost 0x31 = ⟨5, true⟩ := rfl
  ⟨h, h ▸ (by decide : 2 ≤ 5)⟩
theorem andZpx (a : Byte) : Statement (.andZpx a) := fun _ =>
  have h : tableCost 0x35 = ⟨4, false⟩ := rfl
  ⟨h, h ▸ (by decide : 2 ≤ 4)⟩
theorem andAbsy (a : Word) : Statement (.andAbsy a) := fun _ =>
  have h : tableCost 0x39 = ⟨4, true⟩ := rfl
  ⟨h, h ▸ (by decide : 2 ≤ 4)⟩
theorem andAbsx (a : Word) : Statement (.andAbsx a) := fun _ =>
  have h : tableCost 0x3D = ⟨4, true⟩ := rfl
  ⟨h, h ▸ (by decide : 2 ≤ 4)⟩
theorem eorIzx (a : Byte) : Statement (.eorIzx a) := fun _ =>
  have h : tableCost 0x41 = ⟨6, false⟩ := rfl
  ⟨h, h ▸ (by decide : 2 ≤ 6)⟩
theorem eorZp (a : Byte) : Statement (.eorZp a) := fun _ =>
  have h : tableCost 0x45 = ⟨3, false⟩ := rfl
  ⟨h, h ▸ (by decide : 2 ≤ 3)⟩
theorem eorImm (a : Byte) : Statement (.eorImm a) := fun _ =>
  have h : tableCost 0x49 = ⟨2, false⟩ := rfl
  ⟨h, h ▸ (by decide : 2 ≤ 2)⟩
theorem eorAbs (a : Word) : Statement (.eorAbs a) := fun _ =>
  have h : tableCost 0x4D = ⟨4, false⟩ := rfl
  ⟨h, h ▸ (by decide : 2 ≤ 4)⟩
theorem eorIzy (a : Byte) : Statement (.eorIzy a) := fun _ =>
  have h : tableCost 0x51 = ⟨5, true⟩ := rfl
  ⟨h, h ▸ (by decide : 2 ≤ 5)⟩
theorem eorZpx (a : Byte) : Statement (.eorZpx a) := fun _ =>
  have h : tableCost 0x55 = ⟨4, false⟩ := rfl
  ⟨h, h ▸ (by decide : 2 ≤ 4)⟩
theorem eorAbsy (a : Word) : Statement (.eorAbsy a) := fun _ =>
  have h : tableCost 0x59 = ⟨4, true⟩ := rfl
  ⟨h, h ▸ (by decide : 2 ≤ 4)⟩
theorem eorAbsx (a : Word) : Statement (.eorAbsx a) := fun _ =>
  have h : tableCost 0x5D = ⟨4, true⟩ := rfl
  ⟨h, h ▸ (by decide : 2 ≤ 4)⟩
theorem oraIzx (a : Byte) : Statement (.oraIzx a) := fun _ =>
  have h : tableCost 0x01 = ⟨6, false⟩ := rfl
  ⟨h, h ▸ (by decide : 2 ≤ 6)⟩
theorem oraZp (a : Byte) : Statement (.oraZp a) := fun _ =>
  have h : tableCost 0x05 = ⟨3, false⟩ := rfl
  ⟨h, h ▸ (by decide : 2 ≤ 3)⟩
theorem oraImm (a : Byte) : Statement (.oraImm a) := fun _ =>
  have h : tableCost 0x09 = ⟨2, false⟩ := rfl
  ⟨h, h ▸ (by decide : 2 ≤ 2)⟩
theorem oraAbs (a : Word) : Statement (.oraAbs a) := fun _ =>
  have h : tableCost 0x0D = ⟨4, false⟩ := rfl
  ⟨h, h ▸ (by decide : 2 ≤ 4)⟩
theorem oraIzy (a : Byte) : Statement (.oraIzy a) := fun _ =>
  have h : tableCost 0x11 = ⟨5, true⟩ := rfl
  ⟨h, h ▸ (by decide : 2 ≤ 5)⟩
theorem oraZpx (a : Byte) : Statement (.oraZpx a) := fun _ =>
  have h : tableCost 0x15 = ⟨4, false⟩ := rfl
  ⟨h, h ▸ (by decide : 2 ≤ 4)⟩
theorem oraAbsy (a : Word) : Statement (.oraAbsy a) := fun _ =>
  have h : tableCost 0x19 = ⟨4, true⟩ := rfl
  ⟨h, h ▸ (by decide : 2 ≤ 4)⟩
theorem oraAbsx (a : Word) : Statement (.oraAbsx a) := fun _ =>
  have h : tableCost 0x1D = ⟨4, true⟩ := rfl
  ⟨h, h ▸ (by decide : 2 ≤ 4)⟩
theorem bitZp (a : Byte) : Statement (.bitZp a) := fun _ =>
  have h : tableCost 0x24 = ⟨3, false⟩ := rfl
  ⟨h, h ▸ (by decide : 2 ≤ 3)⟩
theorem bitAbs (a : Word) : Statement (.bitAbs a) := fun _ =>
  have h : tableCost 0x2C = ⟨4, false⟩ := rfl
  ⟨h, h ▸ (by decide : 2 ≤ 4)⟩
theorem incZp (a : Byte) : Statement (.incZp a) := fun _ =>
  have h : tableCost 0xE6 = ⟨5, false⟩ := rfl
  ⟨h, h ▸ (by decide : 2 ≤ 5)⟩
theorem incAbs (a : Word) : Statement (.incAbs a) := fun _ =>
  have h : tableCost 0xEE = ⟨6, false⟩ := rfl
  ⟨h, h ▸ (by decide : 2 ≤ 6)⟩
theorem incZpx (a : Byte) : Statement (.incZpx a) := fun _ =>
  have h : tableCost 0xF6 = ⟨6, false⟩ := rfl
  ⟨h, h ▸ (by decide : 2 ≤ 6)⟩
theorem incAbsx (a : Word) : Statement (.incAbsx a) := fun _ =>
  have h : tableCost 0xFE = ⟨7, false⟩ := rfl
  ⟨h, h ▸ (by decide : 2 ≤ 7)⟩
theorem decZp (a : Byte) : Statement (.decZp a) := fun _ =>
  have h : tableCost 0xC6 = ⟨5, false⟩ := rfl
  ⟨h, h ▸ (by decide : 2 ≤ 5)⟩
theorem decAbs (a : Word) : Statement (.decAbs a) := fun _ =>
  have h : tableCost 0xCE = ⟨6, false⟩ := rfl
  ⟨h, h ▸ (by decide : 2 ≤ 6)⟩
theorem decZpx (a : Byte) : Statement (.decZpx a) := fun _ =>
  have h : tableCost 0xD6 = ⟨6, false⟩ := rfl
  ⟨h, h ▸ (by decide : 2 ≤ 6)⟩
theorem decAbsx (a : Word) : Statement (.decAbsx a) := fun _ =>
  have h : tableCost 0xDE = ⟨7, false⟩ := rfl
  ⟨h, h ▸ (by decide : 2 ≤ 7)⟩
theorem inx : Statement .inx := fun _ =>
  have h : tableCost 0xE8 = ⟨2, false⟩ := rfl
  ⟨h, h ▸ (by decide : 2 ≤ 2)⟩
theorem dex : Statement .dex := fun _ =>
  have h : tableCost 0xCA = ⟨2, false⟩ := rfl
  ⟨h, h ▸ (by decide : 2 ≤ 2)⟩
theorem iny : Statement .iny := fun _ =>
  have h : tableCost 0xC8 = ⟨2, false⟩ := rfl
  ⟨h, h ▸ (by decide : 2 ≤ 2)⟩
theorem dey : Statement .dey := fun _ =>
  have h : tableCost 0x88 = ⟨2, false⟩ := rfl
  ⟨h, h ▸ (by decide : 2 ≤ 2)⟩
theorem aslZp (a : Byte) : Statement (.aslZp a) := fun _ =>
  have h : tableCost 0x06 = ⟨5, false⟩ := rfl
  ⟨h, h ▸ (by decide : 2 ≤ 5)⟩
theorem aslAcc : Statement .aslAcc := fun _ =>
  have h : tableCost 0x0A = ⟨2, false⟩ := rfl
  ⟨h, h ▸ (by decide : 2 ≤ 2)⟩
theorem aslAbs (a : Word) : Statement (.aslAbs a) := fun _ =>
  have h : tableCost 0x0E = ⟨6, false⟩ := rfl
  ⟨h, h ▸ (by decide : 2 ≤ 6)⟩
theorem aslZpx (a : Byte) : Statement (.aslZpx a) := fun _ =>
  have h : tableCost 0x16 = ⟨6, false⟩ := rfl
  ⟨h, h ▸ (by decide : 2 ≤ 6)⟩
theorem aslAbsx (a : Word) : Statement (.aslAbsx a) := fun _ =>
  have h : tableCost 0x1E = ⟨7, false⟩ := rfl
  ⟨h, h ▸ (by decide : 2 ≤ 7)⟩
theorem lsrZp (a : Byte) : Statement (.lsrZp a) := fun _ =>
  have h : tableCost 0x46 = ⟨5, false⟩ := rfl
  ⟨h, h ▸ (by decide : 2 ≤ 5)⟩
theorem lsrAcc : Statement .lsrAcc := fun _ =>
  have h : tableCost 0x4A = ⟨2, false⟩ := rfl
  ⟨h, h ▸ (by decide : 2 ≤ 2)⟩
theorem lsrAbs (a : Word) : Statement (.lsrAbs a) := fun _ =>
  have h : tableCost 0x4E = ⟨6, false⟩ := rfl
  ⟨h, h ▸ (by decide : 2 ≤ 6)⟩
theorem lsrZpx (a : Byte) : Statement (.lsrZpx a) := fun _ =>
  have h : tableCost 0x56 = ⟨6, false⟩ := rfl
  ⟨h, h ▸ (by decide : 2 ≤ 6)⟩
theorem lsrAbsx (a : Word) : Statement (.lsrAbsx a) := fun _ =>
  have h : tableCost 0x5E = ⟨7, false⟩ := rfl
  ⟨h, h ▸ (by decide : 2 ≤ 7)⟩
theorem rolZp (a : Byte) : Statement (.rolZp a) := fun _ =>
  have h : tableCost 0x26 = ⟨5, false⟩ := rfl
  ⟨h, h ▸ (by decide : 2 ≤ 5)⟩
theorem rolAcc : Statement .rolAcc := fun _ =>
  have h : tableCost 0x2A = ⟨2, false⟩ := rfl
  ⟨h, h ▸ (by decide : 2 ≤ 2)⟩
theorem rolAbs (a : Word) : Statement (.rolAbs a) := fun _ =>
  have h : tableCost 0x2E = ⟨6, false⟩ := rfl
  ⟨h, h ▸ (by decide : 2 ≤ 6)⟩
theorem rolZpx (a : Byte) : Statement (.rolZpx a) := fun _ =>
  have h : tableCost 0x36 = ⟨6, false⟩ := rfl
  ⟨h, h ▸ (by decide : 2 ≤ 6)⟩
theorem rolAbsx (a : Word) : Statement (.rolAbsx a) := fun _ =>
  have h : tableCost 0x3E = ⟨7, false⟩ := rfl
  ⟨h, h ▸ (by decide : 2 ≤ 7)⟩
theorem rorZp (a : Byte) : Statement (.rorZp a) := fun _ =>
  have h : tableCost 0x66 = ⟨5, false⟩ := rfl
  ⟨h, h ▸ (by decide : 2 ≤ 5)⟩
theorem rorAcc : Statement .rorAcc := fun _ =>
  have h : tableCost 0x6A = ⟨2, false⟩ := rfl
  ⟨h, h ▸ (by decide : 2 ≤ 2)⟩
theorem rorAbs (a : Word) : Statement (.rorAbs a) := fun _ =>
  have h : tableCost 0x6E = ⟨6, false⟩ := rfl
  ⟨h, h ▸ (by decide : 2 ≤ 6)⟩
theorem rorZpx (a : Byte) : Statement (.rorZpx a) := fun _ =>
  have h : tableCost 0x76 = ⟨6, false⟩ := rfl
  ⟨h, h ▸ (by decide : 2 ≤ 6)⟩
theorem rorAbsx (a : Word) : Statement (.rorAbsx a) := fun _ =>
  have h : tableCost 0x7E = ⟨7, false⟩ := rfl
  ⟨h, h ▸ (by decide : 2 ≤ 7)⟩
theorem adcIzx (a : Byte) : Statement (.adcIzx a) := fun _ =>
  have h : tableCost 0x61 = ⟨6, false⟩ := rfl
  ⟨h, h ▸ (by decide : 2 ≤ 6)⟩
theorem adcZp (a : Byte) : Statement (.adcZp a) := fun _ =>
  have h : tableCost 0x65 = ⟨3, false⟩ := rfl
  ⟨h, h ▸ (by decide : 2 ≤ 3)⟩
theorem adcImm (a : Byte) : Statement (.adcImm a) := fun _ =>
  have h : tableCost 0x69 = ⟨2, false⟩ := rfl
  ⟨h, h ▸ (by decide : 2 ≤ 2)⟩
theorem adcAbs (a : Word) : Statement (.adcAbs a) := fun _ =>
  have h : tableCost 0x6D = ⟨4, false⟩ := rfl
  ⟨h, h ▸ (by decide : 2 ≤ 4)⟩
theorem adcIzy (a : Byte) : Statement (.adcIzy a) := fun _ =>
  have h : tableCost 0x71 = ⟨5, true⟩ := rfl
  ⟨h, h ▸ (by decide : 2 ≤ 5)⟩
theorem adcZpx (a : Byte) : Statement (.adcZpx a) := fun _ =>
  have h : tableCost 0x75 = ⟨4, false⟩ := rfl
  ⟨h, h ▸ (by decide : 2 ≤ 4)⟩
theorem adcAbsy (a : Word) : Statement (.adcAbsy a) := fun _ =>
  have h : tableCost 0x79 = ⟨4, true⟩ := rfl
  ⟨h, h ▸ (by decide : 2 ≤ 4)⟩
theorem adcAbsx (a : Word) : Statement (.adcAbsx a) := fun _ =>
  have h : tableCost 0x7D = ⟨4, true⟩ := rfl
  ⟨h, h ▸ (by decide : 2 ≤ 4)⟩
theorem sbcIzx (a : Byte) : Statement (.sbcIzx a) := fun _ =>
  have h : tableCost 0xE1 = ⟨6, false⟩ := rfl
  ⟨h, h ▸ (by decide : 2 ≤ 6)⟩
theorem sbcZp (a : Byte) : Statement (.sbcZp a) := fun _ =>
  have h : tableCost 0xE5 = ⟨3, false⟩ := rfl
  ⟨h, h ▸ (by decide : 2 ≤ 3)⟩
theorem sbcImm (a : Byte) : Statement (.sbcImm a) := fun _ =>
  have h : tableCost 0xE9 = ⟨2, false⟩ := rfl
  ⟨h, h ▸ (by decide : 2 ≤ 2)⟩
theorem sbcAbs (a : Word) : Statement (.sbcAbs a) := fun _ =>
  have h : tableCost 0xED = ⟨4, false⟩ := rfl
  ⟨h, h ▸ (by decide : 2 ≤ 4)⟩
theorem sbcIzy (a : Byte) : Statement (.sbcIzy a) := fun _ =>
  have h : tableCost 0xF1 = ⟨5, true⟩ := rfl
  ⟨h, h ▸ (by decide : 2 ≤ 5)⟩
theorem sbcZpx (a : Byte) : Statement (.sbcZpx a) := fun _ =>
  have h : tableCost 0xF5 = ⟨4, false⟩ := rfl
  ⟨h, h ▸ (by decide : 2 ≤ 4)⟩
theorem sbcAbsy (a : Word) : Statement (.sbcAbsy a) := fun _ =>
  have h : tableCost 0xF9 = ⟨4, true⟩ := rfl
  ⟨h, h ▸ (by decide : 2 ≤ 4)⟩
theorem sbcAbsx (a : Word) : Statement (.sbcAbsx a) := fun _ =>
  have h : tableCost 0xFD = ⟨4, true⟩ := rfl
  ⟨h, h ▸ (by decide : 2 ≤ 4)⟩
theorem cmpIzx (a : Byte) : Statement (.cmpIzx a) := fun _ =>
  have h : tableCost 0xC1 = ⟨6, false⟩ := rfl
  ⟨h, h ▸ (by decide : 2 ≤ 6)⟩
theorem cmpZp (a : Byte) : Statement (.cmpZp a) := fun _ =>
  have h : tableCost 0xC5 = ⟨3, false⟩ := rfl
  ⟨h, h ▸ (by decide : 2 ≤ 3)⟩
theorem cmpImm (a : Byte) : Statement (.cmpImm a) := fun _ =>
  have h : tableCost 0xC9 = ⟨2, false⟩ := rfl
  ⟨h, h ▸ (by decide : 2 ≤ 2)⟩
theorem cmpAbs (a : Word) : Statement (.cmpAbs a) := fun _ =>
  have h : tableCost 0xCD = ⟨4, false⟩ := rfl
  ⟨h, h ▸ (by decide : 2 ≤ 4)⟩
theorem cmpIzy (a : Byte) : Statement (.cmpIzy a) := fun _ =>
  have h : tableCost 0xD1 = ⟨5, true⟩ := rfl
  ⟨h, h ▸ (by decide : 2 ≤ 5)⟩
theorem cmpZpx (a : Byte) : Statement (.cmpZpx a) := fun _ =>
  have h : tableCost 0xD5 = ⟨4, false⟩ := rfl
  ⟨h, h ▸ (by decide : 2 ≤ 4)⟩
theorem cmpAbsy (a : Word) : Statement (.cmpAbsy a) := fun _ =>
  have h : tableCost 0xD9 = ⟨4, true⟩ := rfl
  ⟨h, h ▸ (by decide : 2 ≤ 4)⟩
theorem cmpAbsx (a : Word) : Statement (.cmpAbsx a) := fun _ =>
  have h : tableCost 0xDD = ⟨4, true⟩ := rfl
  ⟨h, h ▸ (by decide : 2 ≤ 4)⟩
theorem cpxImm (a : Byte) : Statement (.cpxImm a) := fun _ =>
  have h : tableCost 0xE0 = ⟨2, false⟩ := rfl
  ⟨h, h ▸ (by decide : 2 ≤ 2)⟩
theorem cpxZp (a : Byte) : Statement (.cpxZp a) := fun _ =>
  have h : tableCost 0xE4 = ⟨3, false⟩ := rfl
  ⟨h, h ▸ (by decide : 2 ≤ 3)⟩
theorem cpxAbs (a : Word) : Statement (.cpxAbs a) := fun _ =>
  have h : tableCost 0xEC = ⟨4, false⟩ := rfl
  ⟨h, h ▸ (by decide : 2 ≤ 4)⟩
theorem cpyImm (a : Byte) : Statement (.cpyImm a) := fun _ =>
  have h : tableCost 0xC0 = ⟨2, false⟩ := rfl
  ⟨h, h ▸ (by decide : 2 ≤ 2)⟩
theorem cpyZp (a : Byte) : Statement (.cpyZp a) := fun _ =>
  have h : tableCost 0xC4 = ⟨3, false⟩ := rfl
  ⟨h, h ▸ (by decide : 2 ≤ 3)⟩
theorem cpyAbs (a : Word) : Statement (.cpyAbs a) := fun _ =>
  have h : tableCost 0xCC = ⟨4, false⟩ := rfl
  ⟨h, h ▸ (by decide : 2 ≤ 4)⟩
theorem bpl (a : Byte) : Statement (.bpl a) := fun _ =>
  have h : tableCost 0x10 = ⟨2, false⟩ := rfl
  ⟨h, h ▸ (by decide : 2 ≤ 2)⟩
theorem bmi (a : Byte) : Statement (.bmi a) := fun _ =>
  have h : tableCost 0x30 = ⟨2, false⟩ := rfl
  ⟨h, h ▸ (by decide : 2 ≤ 2)⟩
theorem bvc (a : Byte) : Statement (.bvc a) := fun _ =>
  have h : tableCost 0x50 = ⟨2, false⟩ := rfl
  ⟨h, h ▸ (by decide : 2 ≤ 2)⟩
theorem bvs (a : Byte) : Statement (.bvs a) := fun _ =>
  have h : tableCost 0x70 = ⟨2, false⟩ := rfl
  ⟨h, h ▸ (by decide : 2 ≤ 2)⟩
theorem bcc (a : Byte) : Statement (.bcc a) := fun _ =>
  have h : tableCost 0x90 = ⟨2, false⟩ := rfl
  ⟨h, h ▸ (by decide : 2 ≤ 2)⟩
theorem bcs (a : Byte) : Statement (.bcs a) := fun _ =>
  have h : tableCost 0xB0 = ⟨2, false⟩ := rfl
  ⟨h, h ▸ (by decide : 2 ≤ 2)⟩
theorem bne (a : Byte) : Statement (.bne a) := fun _ =>
  have h : tableCost 0xD0 = ⟨2, false⟩ := rfl
  ⟨h, h ▸ (by decide : 2 ≤ 2)⟩
theorem beq (a : Byte) : Statement (.beq a) := fun _ =>
  have h : tableCost 0xF0 = ⟨2, false⟩ := rfl
  ⟨h, h ▸ (by decide : 2 ≤ 2)⟩
theorem jmpAbs (a : Word) : Statement (.jmpAbs a) := fun _ =>
  have h : tableCost 0x4C = ⟨3, false⟩ := rfl
  ⟨h, h ▸ (by decide : 2 ≤ 3)⟩
theorem jmpInd (a : Word) : Statement (.jmpInd a) := fun _ =>
  have h : tableCost 0x6C = ⟨5, false⟩ := rfl
  ⟨h, h ▸ (by decide : 2 ≤ 5)⟩
theorem jsr (a : Word) : Statement (.jsr a) := fun _ =>
  have h : tableCost 0x20 = ⟨6, false⟩ := rfl
  ⟨h, h ▸ (by decide : 2 ≤ 6)⟩
theorem rts : Statement .rts := fun _ =>
  have h : tableCost 0x60 = ⟨6, false⟩ := rfl
  ⟨h, h ▸ (by decide : 2 ≤ 6)⟩
theorem brk : Statement .brk := fun _ =>
  have h : tableCost 0x00 = ⟨7, false⟩ := rfl
  ⟨h, h ▸ (by decide : 2 ≤ 7)⟩
theorem rti : Statement .rti := fun _ =>
  have h : tableCost 0x40 = ⟨6, false⟩ := rfl
  ⟨h, h ▸ (by decide : 2 ≤ 6)⟩
theorem clc : Statement .clc := fun _ =>
  have h : tableCost 0x18 = ⟨2, false⟩ := rfl
  ⟨h, h ▸ (by decide : 2 ≤ 2)⟩
theorem sec : Statement .sec := fun _ =>
  have h : tableCost 0x38 = ⟨2, false⟩ := rfl
  ⟨h, h ▸ (by decide : 2 ≤ 2)⟩
theorem cli : Statement .cli := fun _ =>
  have h : tableCost 0x58 = ⟨2, false⟩ := rfl
  ⟨h, h ▸ (by decide : 2 ≤ 2)⟩
theorem sei : Statement .sei := fun _ =>
  have h : tableCost 0x78 = ⟨2, false⟩ := rfl
  ⟨h, h ▸ (by decide : 2 ≤ 2)⟩
theorem clv : Statement .clv := fun _ =>
  have h : tableCost 0xB8 = ⟨2, false⟩ := rfl
  ⟨h, h ▸ (by decide : 2 ≤ 2)⟩
theorem cld : Statement .cld := fun _ =>
  have h : tableCost 0xD8 = ⟨2, false⟩ := rfl
  ⟨h, h ▸ (by decide : 2 ≤ 2)⟩
theorem sed : Statement .sed := fun _ =>
  have h : tableCost 0xF8 = ⟨2, false⟩ := rfl
  ⟨h, h ▸ (by decide : 2 ≤ 2)⟩
theorem nop : Statement .nop := fun _ =>
  have h : tableCost 0xEA = ⟨2, false⟩ := rfl
  ⟨h, h ▸ (by decide : 2 ≤ 2)⟩
theorem iscIzx (a : Byte) : Statement (.iscIzx a) := fun _ =>
  have h : tableCost 0xE3 = ⟨8, false⟩ := rfl
  ⟨h, h ▸ (by decide : 2 ≤ 8)⟩
theorem iscZp (a : Byte) : Statement (.iscZp a) := fun _ =>
  have h : tableCost 0xE7 = ⟨5, false⟩ := rfl
  ⟨h, h ▸ (by decide : 2 ≤ 5)⟩
theorem iscAbs (a : Word) : Statement (.iscAbs a) := fun _ =>
  have h : tableCost 0xEF = ⟨6, false⟩ := rfl
  ⟨h, h ▸ (by decide : 2 ≤ 6)⟩
theorem iscIzy (a : Byte) : Statement (.iscIzy a) := fun _ =>
  have h : tableCost 0xF3 = ⟨8, false⟩ := rfl
  ⟨h, h ▸ (by decide : 2 ≤ 8)⟩
theorem iscZpx (a : Byte) : Statement (.iscZpx a) := fun _ =>
  have h : tableCost 0xF7 = ⟨6, false⟩ := rfl
  ⟨h, h ▸ (by decide : 2 ≤ 6)⟩
theorem iscAbsy (a : Word) : Statement (.iscAbsy a) := fun _ =>
  have h : tableCost 0xFB = ⟨7, false⟩ := rfl
  ⟨h, h ▸ (by decide : 2 ≤ 7)⟩
theorem iscAbsx (a : Word) : Statement (.iscAbsx a) := fun _ =>
  have h : tableCost 0xFF = ⟨7, false⟩ := rfl
  ⟨h, h ▸ (by decide : 2 ≤ 7)⟩
theorem decodeFailure (opc : Byte) : Statement (.decodeFailure opc) := fun h => absurd rfl h

/-- Of every instruction. -/
theorem every (i : Instr) : Statement i :=
  match i with
  | .ldaIzx a => ldaIzx a
  | .ldaZp a => ldaZp a
  | .ldaImm a => ldaImm a
  | .ldaAbs a => ldaAbs a
  | .ldaIzy a => ldaIzy a
  | .ldaZpx a => ldaZpx a
  | .ldaAbsy a => ldaAbsy a
  | .ldaAbsx a => ldaAbsx a
  | .ldxImm a => ldxImm a
  | .ldxZp a => ldxZp a
  | .ldxAbs a => ldxAbs a
  | .ldxZpy a => ldxZpy a
  | .ldxAbsy a => ldxAbsy a
  | .ldyImm a => ldyImm a
  | .ldyZp a => ldyZp a
  | .ldyAbs a => ldyAbs a
  | .ldyZpx a => ldyZpx a
  | .ldyAbsx a => ldyAbsx a
  | .staIzx a => staIzx a
  | .staZp a => staZp a
  | .staAbs a => staAbs a
  | .staIzy a => staIzy a
  | .staZpx a => staZpx a
  | .staAbsy a => staAbsy a
  | .staAbsx a => staAbsx a
  | .stxZp a => stxZp a
  | .stxAbs a => stxAbs a
  | .stxZpy a => stxZpy a
  | .styZp a => styZp a
  | .styAbs a => styAbs a
  | .styZpx a => styZpx a
  | .tax => tax
  | .tay => tay
  | .txa => txa
  | .tya => tya
  | .tsx => tsx
  | .txs => txs
  | .pha => pha
  | .pla => pla
  | .php => php
  | .plp => plp
  | .andIzx a => andIzx a
  | .andZp a => andZp a
  | .andImm a => andImm a
  | .andAbs a => andAbs a
  | .andIzy a => andIzy a
  | .andZpx a => andZpx a
  | .andAbsy a => andAbsy a
  | .andAbsx a => andAbsx a
  | .eorIzx a => eorIzx a
  | .eorZp a => eorZp a
  | .eorImm a => eorImm a
  | .eorAbs a => eorAbs a
  | .eorIzy a => eorIzy a
  | .eorZpx a => eorZpx a
  | .eorAbsy a => eorAbsy a
  | .eorAbsx a => eorAbsx a
  | .oraIzx a => oraIzx a
  | .oraZp a => oraZp a
  | .oraImm a => oraImm a
  | .oraAbs a => oraAbs a
  | .oraIzy a => oraIzy a
  | .oraZpx a => oraZpx a
  | .oraAbsy a => oraAbsy a
  | .oraAbsx a => oraAbsx a
  | .bitZp a => bitZp a
  | .bitAbs a => bitAbs a
  | .incZp a => incZp a
  | .incAbs a => incAbs a
  | .incZpx a => incZpx a
  | .incAbsx a => incAbsx a
  | .decZp a => decZp a
  | .decAbs a => decAbs a
  | .decZpx a => decZpx a
  | .decAbsx a => decAbsx a
  | .inx => inx
  | .dex => dex
  | .iny => iny
  | .dey => dey
  | .aslZp a => aslZp a
  | .aslAcc => aslAcc
  | .aslAbs a => aslAbs a
  | .aslZpx a => aslZpx a
  | .aslAbsx a => aslAbsx a
  | .lsrZp a => lsrZp a
  | .lsrAcc => lsrAcc
  | .lsrAbs a => lsrAbs a
  | .lsrZpx a => lsrZpx a
  | .lsrAbsx a => lsrAbsx a
  | .rolZp a => rolZp a
  | .rolAcc => rolAcc
  | .rolAbs a => rolAbs a
  | .rolZpx a => rolZpx a
  | .rolAbsx a => rolAbsx a
  | .rorZp a => rorZp a
  | .rorAcc => rorAcc
  | .rorAbs a => rorAbs a
  | .rorZpx a => rorZpx a
  | .rorAbsx a => rorAbsx a
  | .adcIzx a => adcIzx a
  | .adcZp a => adcZp a
  | .adcImm a => adcImm a
  | .adcAbs a => adcAbs a
  | .adcIzy a => adcIzy a
  | .adcZpx a => adcZpx a
  | .adcAbsy a => adcAbsy a
  | .adcAbsx a => adcAbsx a
  | .sbcIzx a => sbcIzx a
  | .sbcZp a => sbcZp a
  | .sbcImm a => sbcImm a
  | .sbcAbs a => sbcAbs a
  | .sbcIzy a => sbcIzy a
  | .sbcZpx a => sbcZpx a
  | .sbcAbsy a => sbcAbsy a
  | .sbcAbsx a => sbcAbsx a
  | .cmpIzx a => cmpIzx a
  | .cmpZp a => cmpZp a
  | .cmpImm a => cmpImm a
  | .cmpAbs a => cmpAbs a
  | .cmpIzy a => cmpIzy a
  | .cmpZpx a => cmpZpx a
  | .cmpAbsy a => cmpAbsy a
  | .cmpAbsx a => cmpAbsx a
  | .cpxImm a => cpxImm a
  | .cpxZp a => cpxZp a
  | .cpxAbs a => cpxAbs a
  | .cpyImm a => cpyImm a
  | .cpyZp a => cpyZp a
  | .cpyAbs a => cpyAbs a
  | .bpl a => bpl a
  | .bmi a => bmi a
  | .bvc a => bvc a
  | .bvs a => bvs a
  | .bcc a => bcc a
  | .bcs a => bcs a
  | .bne a => bne a
  | .beq a => beq a
  | .jmpAbs a => jmpAbs a
  | .jmpInd a => jmpInd a
  | .jsr a => jsr a
  | .rts => rts
  | .brk => brk
  | .rti => rti
  | .clc => clc
  | .sec => sec
  | .cli => cli
  | .sei => sei
  | .clv => clv
  | .cld => cld
  | .sed => sed
  | .nop => nop
  | .iscIzx a => iscIzx a
  | .iscZp a => iscZp a
  | .iscAbs a => iscAbs a
  | .iscIzy a => iscIzy a
  | .iscZpx a => iscZpx a
  | .iscAbsy a => iscAbsy a
  | .iscAbsx a => iscAbsx a
  | .decodeFailure opc => decodeFailure opc

end Sys2Proof.Laws.Cost
end

