-- ==== Sys2Proof/Laws/Ppu.lean ====
section
/-! SUPPORT. Laws/Ppu.lean: the fields of `v` and `t`, and the PPU's addresses, in numbers. -/

namespace Sys2Proof.Machine

/-! ## The fields of `v` and `t` (R144) -/

@[simp] theorem coarseX_packVram (a b : BitVec 5) (c : BitVec 2) (d : BitVec 3) : coarseX (packVram a b c d) = a := by
  apply BitVec.eq_of_getLsbD_eq; intro i hi
  interval_cases i <;> simp only [coarseX, packVram, BitVec.getLsbD_extractLsb', BitVec.getLsbD_append] <;> rfl

@[simp] theorem coarseY_packVram (a b : BitVec 5) (c : BitVec 2) (d : BitVec 3) : coarseY (packVram a b c d) = b := by
  apply BitVec.eq_of_getLsbD_eq; intro i hi
  interval_cases i <;> simp only [coarseY, packVram, BitVec.getLsbD_extractLsb', BitVec.getLsbD_append] <;> rfl

@[simp] theorem ntSelect_packVram (a b : BitVec 5) (c : BitVec 2) (d : BitVec 3) : ntSelect (packVram a b c d) = c := by
  apply BitVec.eq_of_getLsbD_eq; intro i hi
  interval_cases i <;> simp only [ntSelect, packVram, BitVec.getLsbD_extractLsb', BitVec.getLsbD_append] <;> rfl

@[simp] theorem fineY_packVram (a b : BitVec 5) (c : BitVec 2) (d : BitVec 3) : fineY (packVram a b c d) = d := by
  apply BitVec.eq_of_getLsbD_eq; intro i hi
  interval_cases i <;> simp only [fineY, packVram, BitVec.getLsbD_extractLsb', BitVec.getLsbD_append] <;> rfl

theorem coarseX_toNat (v : VramReg) : (coarseX v).toNat = v.toNat % 32 := by simp [coarseX]

theorem coarseY_toNat (v : VramReg) : (coarseY v).toNat = v.toNat / 32 % 32 := by simp [coarseY, Nat.shiftRight_eq_div_pow]

theorem ntSelect_toNat (v : VramReg) : (ntSelect v).toNat = v.toNat / 1024 % 4 := by simp [ntSelect, Nat.shiftRight_eq_div_pow]

theorem fineY_toNat (v : VramReg) : (fineY v).toNat = v.toNat / 4096 % 8 := by simp [fineY, Nat.shiftRight_eq_div_pow]

/-! ## The PPU bus (R240) -/

theorem ppuAddr_toNat (a : Word) : (ppuAddr a).toNat = a.toNat % 0x4000 := toNat_and_mask a _ 14 rfl

@[simp] theorem ppuAddr_ppuAddr (a : Word) : ppuAddr (ppuAddr a) = ppuAddr a := by
  apply BitVec.eq_of_toNat_eq; rw [ppuAddr_toNat, ppuAddr_toNat]; omega

@[simp] theorem ppuRead_ppuAddr (m : Mirroring) (a : Word) (q : Ppu) : ppuRead m (ppuAddr a) q = ppuRead m a q := by
  unfold ppuRead; rw [ppuAddr_ppuAddr]

@[simp] theorem ppuWrite_ppuAddr (m : Mirroring) (a : Word) (b : Byte) (q : Ppu) : ppuWrite m (ppuAddr a) b q = ppuWrite m a b q := by
  unfold ppuWrite; rw [ppuAddr_ppuAddr]

theorem ppuAddr_vramWord (v : VramReg) : ppuAddr (vramWord v) = BitVec.ofNat 16 (v.toNat % 0x4000) := by
  apply BitVec.eq_of_toNat_eq
  rw [ppuAddr_toNat]
  simp [vramWord]; omega

/-- R1075: the step of `v` in numbers. -/
theorem vramStep_eq (q : Ppu) : q.v + vramStep q = BitVec.ofNat 15 (q.v.toNat + if q.ctrl.getLsbD 2 then 32 else 1) := by
  apply BitVec.eq_of_toNat_eq
  unfold vramStep regBit
  split <;> simp [BitVec.toNat_add]

end Sys2Proof.Machine
end

