-- ==== Sys2Proof/Laws/Sink.lean ====
section
/-! SUPPORT. Laws/Sink.lean: two machines that differ only in `sink_ready` and in the calls recorded go on alike (spec/52 R1131). -/

namespace Sys2Proof.Machine

/-- The two states differ at most in `sink_ready` and in the calls recorded. -/
def SameButSink (s t : State) : Prop :=
  ∃ (ready : Bool) (calls : List HostCall), t = { s with host := { s.host with sinkReady := ready, calls := calls } }

/-- The two outcomes differ at most in `sink_ready` and in the calls recorded. -/
def AlikeOutcome (x y : Result) : Prop := ∃ s t, x = .next s ∧ y = .next t ∧ SameButSink s t

theorem SameButSink.refl (s : State) : SameButSink s s := ⟨s.host.sinkReady, s.host.calls, rfl⟩

theorem SameButSink.cpu {s t : State} (h : SameButSink s t) : t.cpu = s.cpu := by obtain ⟨r, c, rfl⟩ := h; rfl
theorem SameButSink.cfg {s t : State} (h : SameButSink s t) : t.cfg = s.cfg := by obtain ⟨r, c, rfl⟩ := h; rfl
theorem SameButSink.ppu {s t : State} (h : SameButSink s t) : t.ppu = s.ppu := by obtain ⟨r, c, rfl⟩ := h; rfl
theorem SameButSink.wram {s t : State} (h : SameButSink s t) : t.wram = s.wram := by obtain ⟨r, c, rfl⟩ := h; rfl

theorem SameButSink.mapCpu {s t : State} (h : SameButSink s t) (f : Cpu → Cpu) : SameButSink (s.mapCpu f) (t.mapCpu f) := by
  obtain ⟨r, c, rfl⟩ := h; exact ⟨r, c, rfl⟩

theorem SameButSink.mapPpu {s t : State} (h : SameButSink s t) (f : Ppu → Ppu) : SameButSink (s.mapPpu f) (t.mapPpu f) := by
  obtain ⟨r, c, rfl⟩ := h; exact ⟨r, c, rfl⟩

theorem SameButSink.charge {s t : State} (h : SameButSink s t) (n : Nat) : SameButSink (s.charge n) (t.charge n) := h.mapCpu _

theorem SameButSink.setPc {s t : State} (h : SameButSink s t) (w : Word) : SameButSink (s.setPc w) (t.setPc w) := h.mapCpu _

theorem SameButSink.spend {s t : State} (h : SameButSink s t) : SameButSink s.spend t.spend := h.mapCpu _

/-! ## The buses -/

theorem SameButSink.pollButton {s t : State} (h : SameButSink s t) (n : Nat) :
    (pollButton n t).1 = (pollButton n s).1 ∧ SameButSink (pollButton n s).2 (pollButton n t).2 := by
  obtain ⟨r, c, rfl⟩ := h
  simp only [Machine.pollButton, State.call]
  split <;> exact ⟨rfl, _, _, rfl⟩

theorem SameButSink.padRead {s t : State} (h : SameButSink s t) :
    (padRead t).1 = (padRead s).1 ∧ SameButSink (padRead s).2 (padRead t).2 := by
  have hp : t.pad = s.pad := by obtain ⟨r, c, rfl⟩ := h; rfl
  unfold Machine.padRead
  rw [hp]
  split
  · exact ⟨congrArg byteOfBool (h.pollButton 0).1, (h.pollButton 0).2⟩
  · split
    · refine ⟨congrArg byteOfBool (h.pollButton _).1, ?_⟩
      obtain ⟨r, c, hh⟩ := (h.pollButton s.pad.index).2
      exact ⟨r, c, by dsimp only; rw [hh]⟩
    · exact ⟨rfl, h⟩

theorem SameButSink.busRead {s t : State} (h : SameButSink s t) (a : Word) :
    (busRead a t).1 = (busRead a s).1 ∧ SameButSink (busRead a s).2 (busRead a t).2 := by
  unfold Machine.busRead
  rw [h.cfg]
  split
  · exact ⟨by rw [h.wram], h⟩
  · obtain ⟨r, c, rfl⟩ := h; exact ⟨rfl, r, c, rfl⟩
  · exact h.padRead
  · obtain ⟨r, c, rfl⟩ := h; exact ⟨rfl, r, _, rfl⟩
  · obtain ⟨r, c, rfl⟩ := h; exact ⟨rfl, r, c, rfl⟩

theorem SameButSink.applyRegWrite {s t : State} (h : SameButSink s t) (r : RegIndex) (b : Byte) :
    SameButSink (applyRegWrite r b s) (applyRegWrite r b t) := by
  obtain ⟨r, c, rfl⟩ := h; exact ⟨r, c, rfl⟩

theorem SameButSink.busWrite {s t : State} (h : SameButSink s t) (a : Word) (b : Byte) :
    SameButSink (busWrite a b s) (busWrite a b t) := by
  unfold Machine.busWrite issueRegWrite
  rw [h.cfg]
  split
  · obtain ⟨r, c, rfl⟩ := h; exact ⟨r, c, rfl⟩
  · split
    · obtain ⟨r, c, rfl⟩ := h; exact ⟨r, c, rfl⟩
    · exact h.applyRegWrite _ _
  · obtain ⟨r, c, rfl⟩ := h; exact ⟨r, c, rfl⟩
  · obtain ⟨r, c, rfl⟩ := h; exact ⟨r, _, rfl⟩
  · exact h

/-! ## Operands, fetching and the shapes -/

theorem SameButSink.resolve {s t : State} (h : SameButSink s t) (m : Mode) :
    (resolve m t).op = (resolve m s).op ∧ (resolve m t).pen = (resolve m s).pen ∧ SameButSink (resolve m s).st (resolve m t).st := by
  have hc := h.cpu
  have hw := h.wram
  cases m with
  | ind a =>
    have h1 := h.busRead a
    have h2 := h1.2.busRead (indirectHigh s.cfg a)
    simp only [Machine.resolve, indirectTarget, h.cfg, h1.1, h2.1]
    exact ⟨trivial, trivial, h2.2⟩
  | izx a => simp only [Machine.resolve, zeroPagePointer_eq, hc, hw]; exact ⟨trivial, trivial, h⟩
  | izy a => simp only [Machine.resolve, zeroPagePointer_eq, hc, hw]; exact ⟨trivial, trivial, h⟩
  | rel d => simp only [Machine.resolve, branchTarget, hc]; exact ⟨trivial, trivial, h⟩
  | _ => simp only [Machine.resolve, hc]; exact ⟨trivial, trivial, h⟩

theorem SameButSink.load {s t : State} (h : SameButSink s t) (op : Operand) :
    (load op t).1 = (load op s).1 ∧ SameButSink (load op s).2 (load op t).2 := by
  cases op with
  | mem ea => exact h.busRead ea
  | acc => exact ⟨congrArg Cpu.a h.cpu, h⟩
  | _ => exact ⟨rfl, h⟩

theorem SameButSink.store {s t : State} (h : SameButSink s t) (op : Operand) (b : Byte) : SameButSink (store op b s) (store op b t) := by
  cases op with
  | mem ea => exact h.busWrite ea b
  | acc => exact h.mapCpu fun c => { c with a := b }
  | _ => exact h

theorem SameButSink.readInstr {s t : State} (h : SameButSink s t) (o : Byte) (m : Mode) (f : Byte → Cpu → Cpu) :
    AlikeOutcome (readInstr o m f s) (readInstr o m f t) := by
  obtain ⟨h1, h2, h3⟩ := h.resolve m
  have h4 := h3.load (Machine.resolve m s).op
  unfold Machine.readInstr
  simp only [h1, h2, h4.1, h.cfg]
  exact ⟨_, _, rfl, rfl, (h4.2.mapCpu _).charge _⟩

theorem SameButSink.storeInstr {s t : State} (h : SameButSink s t) (o : Byte) (m : Mode) (f : Cpu → Byte) :
    AlikeOutcome (storeInstr o m f s) (storeInstr o m f t) := by
  obtain ⟨h1, h2, h3⟩ := h.resolve m
  unfold Machine.storeInstr
  simp only [h1, h2, h3.cpu, h.cfg]
  exact ⟨_, _, rfl, rfl, (h3.store _ _).charge _⟩

theorem SameButSink.modifyInstr {s t : State} (h : SameButSink s t) (o : Byte) (m : Mode) (v : Byte → Cpu → Byte) (f : Byte → Cpu → Cpu) :
    AlikeOutcome (modifyInstr o m v f s) (modifyInstr o m v f t) := by
  obtain ⟨h1, h2, h3⟩ := h.resolve m
  have h4 := h3.load (Machine.resolve m s).op
  unfold Machine.modifyInstr
  simp only [h1, h2, h4.1, h4.2.cpu, h.cfg]
  exact ⟨_, _, rfl, rfl, ((h4.2.store _ _).mapCpu _).charge _⟩

theorem SameButSink.registerInstr {s t : State} (h : SameButSink s t) (o : Byte) (f : Cpu → Cpu) :
    AlikeOutcome (registerInstr o f s) (registerInstr o f t) := by
  unfold Machine.registerInstr
  simp only [h.cfg]
  exact ⟨_, _, rfl, rfl, (h.mapCpu f).charge _⟩

theorem SameButSink.branchInstr {s t : State} (h : SameButSink s t) (o d : Byte) (b : Bool) :
    AlikeOutcome (branchInstr o d b s) (branchInstr o d b t) := by
  unfold Machine.branchInstr branchTarget
  simp only [h.cpu, h.cfg]
  refine ⟨_, _, rfl, rfl, SameButSink.charge ?_ _⟩
  cases b
  · exact h
  · exact h.setPc _

/-- Every instruction goes on alike. -/
theorem SameButSink.exec {s t : State} (h : SameButSink s t) (i : Instr) : AlikeOutcome (exec i s) (exec i t) := by
  have hc := h.cpu
  generalize hm : i.mnemonic = m
  cases m with
  | lda => rw [exec_lda i s hm, exec_lda i t hm]; exact h.readInstr _ _ _
  | ldx => rw [exec_ldx i s hm, exec_ldx i t hm]; exact h.readInstr _ _ _
  | ldy => rw [exec_ldy i s hm, exec_ldy i t hm]; exact h.readInstr _ _ _
  | and => rw [exec_and i s hm, exec_and i t hm]; exact h.readInstr _ _ _
  | eor => rw [exec_eor i s hm, exec_eor i t hm]; exact h.readInstr _ _ _
  | ora => rw [exec_ora i s hm, exec_ora i t hm]; exact h.readInstr _ _ _
  | bit => rw [exec_bit i s hm, exec_bit i t hm]; exact h.readInstr _ _ _
  | adc => rw [exec_adc i s hm, exec_adc i t hm]; exact h.readInstr _ _ _
  | sbc => rw [exec_sbc i s hm, exec_sbc i t hm]; exact h.readInstr _ _ _
  | cmp => rw [exec_cmp i s hm, exec_cmp i t hm]; exact h.readInstr _ _ _
  | cpx => rw [exec_cpx i s hm, exec_cpx i t hm]; exact h.readInstr _ _ _
  | cpy => rw [exec_cpy i s hm, exec_cpy i t hm]; exact h.readInstr _ _ _
  | sta => rw [exec_sta i s hm, exec_sta i t hm]; exact h.storeInstr _ _ _
  | stx => rw [exec_stx i s hm, exec_stx i t hm]; exact h.storeInstr _ _ _
  | sty => rw [exec_sty i s hm, exec_sty i t hm]; exact h.storeInstr _ _ _
  | inc => rw [exec_inc i s hm, exec_inc i t hm]; exact h.modifyInstr _ _ _ _
  | dec => rw [exec_dec i s hm, exec_dec i t hm]; exact h.modifyInstr _ _ _ _
  | asl => rw [exec_asl i s hm, exec_asl i t hm]; exact h.modifyInstr _ _ _ _
  | lsr => rw [exec_lsr i s hm, exec_lsr i t hm]; exact h.modifyInstr _ _ _ _
  | rol => rw [exec_rol i s hm, exec_rol i t hm]; exact h.modifyInstr _ _ _ _
  | ror => rw [exec_ror i s hm, exec_ror i t hm]; exact h.modifyInstr _ _ _ _
  | isc => rw [exec_isc i s hm, exec_isc i t hm]; exact h.modifyInstr _ _ _ _
  | tax => obtain rfl := Instr.eq_tax i hm; exact h.registerInstr _ _
  | tay => obtain rfl := Instr.eq_tay i hm; exact h.registerInstr _ _
  | txa => obtain rfl := Instr.eq_txa i hm; exact h.registerInstr _ _
  | tya => obtain rfl := Instr.eq_tya i hm; exact h.registerInstr _ _
  | tsx => obtain rfl := Instr.eq_tsx i hm; exact h.registerInstr _ _
  | inx => obtain rfl := Instr.eq_inx i hm; exact h.registerInstr _ _
  | dex => obtain rfl := Instr.eq_dex i hm; exact h.registerInstr _ _
  | iny => obtain rfl := Instr.eq_iny i hm; exact h.registerInstr _ _
  | dey => obtain rfl := Instr.eq_dey i hm; exact h.registerInstr _ _
  | txs => obtain rfl := Instr.eq_txs i hm; exact h.registerInstr _ _
  | clc => obtain rfl := Instr.eq_clc i hm; exact h.registerInstr _ _
  | sec => obtain rfl := Instr.eq_sec i hm; exact h.registerInstr _ _
  | cli => obtain rfl := Instr.eq_cli i hm; exact h.registerInstr _ _
  | sei => obtain rfl := Instr.eq_sei i hm; exact h.registerInstr _ _
  | clv => obtain rfl := Instr.eq_clv i hm; exact h.registerInstr _ _
  | cld => obtain rfl := Instr.eq_cld i hm; exact h.registerInstr _ _
  | sed => obtain rfl := Instr.eq_sed i hm; exact h.registerInstr _ _
  | nop => obtain rfl := Instr.eq_nop i hm; exact h.registerInstr _ _
  | bpl => obtain ⟨a, rfl⟩ := Instr.eq_bpl i hm; simp only [Machine.exec, execBpl, hc]; exact h.branchInstr _ _ _
  | bmi => obtain ⟨a, rfl⟩ := Instr.eq_bmi i hm; simp only [Machine.exec, execBmi, hc]; exact h.branchInstr _ _ _
  | bvc => obtain ⟨a, rfl⟩ := Instr.eq_bvc i hm; simp only [Machine.exec, execBvc, hc]; exact h.branchInstr _ _ _
  | bvs => obtain ⟨a, rfl⟩ := Instr.eq_bvs i hm; simp only [Machine.exec, execBvs, hc]; exact h.branchInstr _ _ _
  | bcc => obtain ⟨a, rfl⟩ := Instr.eq_bcc i hm; simp only [Machine.exec, execBcc, hc]; exact h.branchInstr _ _ _
  | bcs => obtain ⟨a, rfl⟩ := Instr.eq_bcs i hm; simp only [Machine.exec, execBcs, hc]; exact h.branchInstr _ _ _
  | bne => obtain ⟨a, rfl⟩ := Instr.eq_bne i hm; simp only [Machine.exec, execBne, hc]; exact h.branchInstr _ _ _
  | beq => obtain ⟨a, rfl⟩ := Instr.eq_beq i hm; simp only [Machine.exec, execBeq, hc]; exact h.branchInstr _ _ _
  | pha =>
    obtain rfl := Instr.eq_pha i hm
    simp only [Machine.exec, execPha, push_eq, hc, h.wram, h.cfg]
    obtain ⟨r, c, rfl⟩ := h
    exact ⟨_, _, rfl, rfl, r, c, rfl⟩
  | php =>
    obtain rfl := Instr.eq_php i hm
    simp only [Machine.exec, execPhp, push_eq, hc, h.wram, h.cfg]
    obtain ⟨r, c, rfl⟩ := h
    exact ⟨_, _, rfl, rfl, r, c, rfl⟩
  | pla =>
    obtain rfl := Instr.eq_pla i hm
    simp only [Machine.exec, execPla, pull_eq, hc, h.wram, h.cfg]
    obtain ⟨r, c, rfl⟩ := h
    exact ⟨_, _, rfl, rfl, r, c, rfl⟩
  | plp =>
    obtain rfl := Instr.eq_plp i hm
    simp only [Machine.exec, execPlp, pull_eq, hc, h.wram, h.cfg]
    obtain ⟨r, c, rfl⟩ := h
    exact ⟨_, _, rfl, rfl, r, c, rfl⟩
  | jsr =>
    obtain ⟨a, rfl⟩ := Instr.eq_jsr i hm
    simp only [Machine.exec, execJsr, push16_eq, hc, h.wram, h.cfg]
    obtain ⟨r, c, rfl⟩ := h
    exact ⟨_, _, rfl, rfl, r, c, rfl⟩
  | rts =>
    obtain rfl := Instr.eq_rts i hm
    simp only [Machine.exec, execRts, pull16_eq, hc, h.wram, h.cfg]
    obtain ⟨r, c, rfl⟩ := h
    exact ⟨_, _, rfl, rfl, r, c, rfl⟩
  | rti =>
    obtain rfl := Instr.eq_rti i hm
    simp only [Machine.exec, execRti, returnFromInterrupt_eq, hc, h.wram, h.cfg]
    obtain ⟨r, c, rfl⟩ := h
    exact ⟨_, _, rfl, rfl, r, c, rfl⟩
  | brk =>
    obtain rfl := Instr.eq_brk i hm
    simp only [Machine.exec, execBrk, hc, h.cfg]
    rw [enterInterrupt_eq _ _ _ s (by decide) (by decide), enterInterrupt_eq _ _ _ t (by decide) (by decide), hc, h.wram]
    obtain ⟨r, c, rfl⟩ := h
    exact ⟨_, _, rfl, rfl, r, c, rfl⟩
  | jmp =>
    cases i <;> cases hm
    · simp only [Machine.exec, execJmpAbs, h.cfg]
      exact ⟨_, _, rfl, rfl, (h.setPc _).charge _⟩
    · rename_i a
      have h1 := h.busRead a
      have h2 := h1.2.busRead (indirectHigh s.cfg a)
      simp only [Machine.exec, execJmpInd, indirectTarget, h.cfg, h1.1, h2.1]
      exact ⟨_, _, rfl, rfl, (h2.2.setPc _).charge _⟩
  | decodeFailure =>
    rw [exec_decodeFailure i s hm, exec_decodeFailure i t hm, hc]
    obtain ⟨r, c, rfl⟩ := h
    exact ⟨_, _, rfl, rfl, r, c, rfl⟩

theorem SameButSink.fetchByte {s t : State} (h : SameButSink s t) :
    (fetchByte t).1 = (fetchByte s).1 ∧ SameButSink (fetchByte s).2 (fetchByte t).2 := by
  have h1 := h.busRead s.cpu.pc
  unfold Machine.fetchByte
  rw [h.cpu]
  exact ⟨h1.1, h1.2.setPc _⟩

theorem SameButSink.fetchInstr {s t : State} (h : SameButSink s t) :
    (fetchInstr t).1 = (fetchInstr s).1 ∧ SameButSink (fetchInstr s).2 (fetchInstr t).2 := by
  obtain ⟨h1, h2⟩ := h.fetchByte
  obtain ⟨h3, h4⟩ := h2.fetchByte
  obtain ⟨h5, h6⟩ := h4.fetchByte
  unfold Machine.fetchInstr
  simp only [h.cfg, h1, h3, h5]
  split
  · exact ⟨rfl, h4⟩
  · exact ⟨rfl, h6⟩
  · exact ⟨rfl, h2⟩

/-! ## The dot -/

theorem SameButSink.callSink {s t : State} (h : SameButSink s t) (x : HostCall) : SameButSink (s.callSink x) (t.callSink x) := by
  obtain ⟨r, c, rfl⟩ := h
  unfold State.callSink
  split <;> split <;> exact ⟨_, _, rfl⟩

theorem SameButSink.ppuDot {s t : State} (h : SameButSink s t) : SameButSink (ppuDot s) (ppuDot t) := by
  have h1 : SameButSink (vblankEvents s) (vblankEvents t) := by
    unfold vblankEvents
    rw [h.ppu]
    split
    · obtain ⟨r, c, rfl⟩ := h; exact ⟨r, c, rfl⟩
    · split
      · exact h.mapPpu _
      · exact h
  have h2 : SameButSink (pixelStep (vblankEvents s)) (pixelStep (vblankEvents t)) := by
    unfold pixelStep
    rw [h1.ppu]
    split
    · exact (h1.callSink _).mapPpu _
    · split
      · exact h1.callSink _
      · exact h1
  unfold Machine.ppuDot
  simp only [h2.cfg]
  exact h2.mapPpu _

theorem SameButSink.dotStep {s t : State} (h : SameButSink s t) : SameButSink (dotStep s) (dotStep t) := by
  have h1 : SameButSink (applyDue s) (applyDue t) := by
    have key : ∀ (l : List QueuedWrite) (s t : State), SameButSink s t →
        SameButSink (l.foldl (fun t e => Machine.applyRegWrite e.reg e.byte t) s) (l.foldl (fun t e => Machine.applyRegWrite e.reg e.byte t) t) := by
      intro l
      induction l with
      | nil => exact fun _ _ h => h
      | cons e l ih => exact fun s t h => ih _ _ (h.applyRegWrite _ _)
    unfold applyDue
    have hq : t.wq = s.wq ∧ t.dotsTotal = s.dotsTotal := by obtain ⟨r, c, rfl⟩ := h; exact ⟨rfl, rfl⟩
    rw [hq.1, hq.2]
    refine key _ _ _ ?_
    obtain ⟨r, c, rfl⟩ := h
    exact ⟨r, c, rfl⟩
  obtain ⟨r, c, h2⟩ := h1.ppuDot
  exact ⟨r, c, by unfold Machine.dotStep; rw [h2]⟩

end Sys2Proof.Machine
end

