-- ==== Sys2Proof/Tests/Slice0.lean ====
section
/-! SUPPORT. Tests/Slice0.lean: the model's own tests.  Expected words come from spec/30 R300 and R330, expected states from spec/95, or by
hand from the rule named; last, a state that meets the hypotheses of each obligation that has any. -/

namespace Sys2Proof.Tests

open Sys2Proof Sys2Proof.Machine Sys2Proof.Claims

set_option Elab.async false


/-! ## Helpers -/

/-- The image of spec/95 part 2: one bank, vectors `$B000`, `$8000`, `$A000`, vertical mirroring. -/
def image : Cartridge where
  banks := .one
  prg := Memory.writeBytes [] 0x3FFA [0x00, 0xB0, 0x00, 0x80, 0x00, 0xA0]
  chr := []
  mirroring := .vertical

/-- The start state of spec/95 part 2. -/
def base : State := State.powerOn Config.default image PowerOnInit.zero

/-- A start state: processor, the instruction's bytes at its PC, bytes of memory. -/
def start (c : Cpu) (bytes : List Byte) (mem : List (Word × Byte)) : State :=
  mem.foldl (fun s e => placeByte e.1 e.2 s) (placeBytes c.pc bytes { base with cpu := c })

/-- One step answers a next state that passes a check. -/
def runs (s : State) (check : State → Bool) : Bool :=
  match step s with
  | .next t => check t
  | .fault _ => false
  | .refused _ => false

/-- One step stops with this fault. -/
def stopsWith (s : State) (f : Fault) : Bool :=
  match step s with
  | .next _ => false
  | .fault g => decide (g = f)
  | .refused _ => false

/-- One step leaves this processor and these bytes, and three dots have passed. -/
def leaves (s : State) (c : Cpu) (mem : List (Word × Byte)) : Bool :=
  runs s fun t => decide (t.cpu = c) && (mem.all fun e => peek e.1 t == e.2) && t.dotsTotal == 3

theorem next_of_runs {s : State} {check : State → Bool} (h : runs s check = true) : ∃ t, step s = .next t := by
  unfold runs at h
  split at h
  · exact ⟨_, ‹_›⟩
  · cases h
  · cases h

/-- An instruction's next state exists. -/
def goesOn (r : Result) : Bool :=
  match r with
  | .next _ => true
  | .fault _ => false
  | .refused _ => false

theorem next_of_goesOn {r : Result} (h : goesOn r = true) : ∃ t, r = .next t := by
  cases r <;> first | exact ⟨_, rfl⟩ | cases h

/-! ## Well-formedness -/

/-- R331: an ISC byte taken out of `ISC_OPCODES` is no instruction of the machine, and its byte is a decode failure. -/
theorem test_wf_refuses_isc_taken_out :
    (Instr.iscZp 0x10).wf { Config.default with iscOpcodes := [0xE3] } = false ∧
      (Instr.decodeFailure 0xE7).wf { Config.default with iscOpcodes := [0xE3] } = true ∧
      decode { Config.default with iscOpcodes := [0xE3] } [0xE7, 0x10] = .ok (.decodeFailure 0xE7, [0x10]) := by decide

theorem test_wf_refuses_failure_of_an_opcode :
    (Instr.decodeFailure 0xA9).wf Config.default = false ∧ (Instr.decodeFailure 0xE3).wf Config.default = false := by decide

/-- R160: a memory out of order, or one that lists what an unlisted address reads as, or a byte beyond the size, is refused. -/
theorem test_wf_refuses_memories :
    Memory.wf [(2, 1), (1, 1)] = false ∧ Memory.wf [(1, 1), (1, 2)] = false ∧ Memory.wf [(1, 0)] = false ∧
      Memory.ok palSize [(0x20, 1)] = false ∧ Memory.ok palSize [(0x1F, 1)] = true := by decide

/-- R1245: an image with a byte beyond its banks gives no machine. -/
theorem test_power_on_refuses_large_image :
    State.powerOnChecked Config.default { image with prg := [(0x4000, 1)] } PowerOnInit.zero = none := by decide

/-! ## Decoding: words written out from R300 and R330 -/

theorem test_decode_loads_and_stores :
    decodeTableWord 16 0x80A9 = some (.ldaImm 0x80) ∧
      decodeTableWord 16 0xF8B6 = some (.ldxZpy 0xF8) ∧
      decodeTableWord 24 0x1234BC = some (.ldyAbsx 0x1234) ∧
      decodeTableWord 16 0xFF81 = some (.staIzx 0xFF) ∧
      decodeTableWord 24 0x20018D = some (.staAbs 0x2001) ∧
      decodeTableWord 16 0x1096 = some (.stxZpy 0x10) ∧
      decodeTableWord 16 0x0894 = some (.styZpx 0x08) := by decide

theorem test_decode_transfers_and_stack :
    decodeTableWord 8 0xA8 = some (.tay) ∧
      decodeTableWord 8 0x8A = some (.txa) ∧
      decodeTableWord 8 0x98 = some (.tya) ∧
      decodeTableWord 8 0xBA = some (.tsx) ∧
      decodeTableWord 8 0x9A = some (.txs) ∧
      decodeTableWord 8 0x48 = some (.pha) ∧
      decodeTableWord 8 0x68 = some (.pla) ∧
      decodeTableWord 8 0x28 = some (.plp) := by decide

theorem test_decode_logic :
    decodeTableWord 16 0x0F29 = some (.andImm 0x0F) ∧
      decodeTableWord 24 0x02FF59 = some (.eorAbsy 0x02FF) ∧
      decodeTableWord 16 0x1011 = some (.oraIzy 0x10) ∧
      decodeTableWord 24 0x02002C = some (.bitAbs 0x0200) := by decide

theorem test_decode_increments_and_shifts :
    decodeTableWord 16 0x10E6 = some (.incZp 0x10) ∧
      decodeTableWord 24 0x0300DE = some (.decAbsx 0x0300) ∧
      decodeTableWord 8 0xE8 = some (.inx) ∧
      decodeTableWord 8 0x88 = some (.dey) ∧
      decodeTableWord 8 0x0A = some (.aslAcc) ∧
      decodeTableWord 16 0x1046 = some (.lsrZp 0x10) ∧
      decodeTableWord 24 0x02002E = some (.rolAbs 0x0200) ∧
      decodeTableWord 16 0x1076 = some (.rorZpx 0x10) := by decide

theorem test_decode_arithmetic :
    decodeTableWord 16 0x7F69 = some (.adcImm 0x7F) ∧
      decodeTableWord 24 0x02FF79 = some (.adcAbsy 0x02FF) ∧
      decodeTableWord 16 0x10E1 = some (.sbcIzx 0x10) ∧
      decodeTableWord 16 0xFFC9 = some (.cmpImm 0xFF) ∧
      decodeTableWord 16 0x01E0 = some (.cpxImm 0x01) ∧
      decodeTableWord 24 0x1234CC = some (.cpyAbs 0x1234) := by decide

theorem test_decode_control :
    decodeTableWord 16 0xFE10 = some (.bpl 0xFE) ∧
      decodeTableWord 16 0x0230 = some (.bmi 0x02) ∧
      decodeTableWord 16 0x8090 = some (.bcc 0x80) ∧
      decodeTableWord 16 0x02F0 = some (.beq 0x02) ∧
      decodeTableWord 24 0x12344C = some (.jmpAbs 0x1234) ∧
      decodeTableWord 24 0x02FF6C = some (.jmpInd 0x02FF) ∧
      decodeTableWord 24 0x123420 = some (.jsr 0x1234) ∧
      decodeTableWord 8 0x60 = some (.rts) ∧
      decodeTableWord 8 0x00 = some (.brk) ∧
      decodeTableWord 8 0x40 = some (.rti) := by decide

theorem test_decode_flags_nop_isc :
    decodeTableWord 8 0x18 = some (.clc) ∧
      decodeTableWord 8 0x38 = some (.sec) ∧
      decodeTableWord 8 0xB8 = some (.clv) ∧
      decodeTableWord 8 0xF8 = some (.sed) ∧
      decodeTableWord 8 0xEA = some (.nop) ∧
      decodeTableWord 16 0x10E7 = some (.iscZp 0x10) ∧
      decodeTableWord 24 0x0200FF = some (.iscAbsx 0x0200) := by decide

/-! ## Single steps: the vectors of spec/95 part 2, each named by its id, and some by hand -/

theorem test_ls1 :
    leaves (start base.cpu [0xA9, 0x80] [])
      { base.cpu with a := 0x80, p := 0xA4, pc := 0x8002, budget := 1 } [] = true := by decide +kernel

theorem test_ls2 :
    leaves (start { base.cpu with x := 0x01 } [0xBD, 0xFF, 0x80] [(0x8100, 0x00)])
      { base.cpu with x := 0x01, p := 0x26, pc := 0x8003, budget := 4 } [] = true := by decide +kernel

theorem test_ls3 :
    leaves (start { base.cpu with x := 0xFF } [0xB5, 0x80] [(0x007F, 0x42)])
      { base.cpu with a := 0x42, x := 0xFF, pc := 0x8002, budget := 3 } [] = true := by decide +kernel

theorem test_ls4 :
    leaves (start { base.cpu with y := 0x10 } [0xB6, 0xF8] [(0x0008, 0x99)])
      { base.cpu with x := 0x99, y := 0x10, p := 0xA4, pc := 0x8002, budget := 3 } [] = true := by decide +kernel

theorem test_ls5 :
    leaves (start base.cpu [0xA1, 0xFF] [(0x00FF, 0x34), (0x0000, 0x02), (0x0234, 0x7E)])
      { base.cpu with a := 0x7E, pc := 0x8002, budget := 5 } [] = true := by decide +kernel

theorem test_ls6 :
    leaves (start { base.cpu with y := 0x01 } [0xB1, 0x10] [(0x0010, 0xFF), (0x0011, 0x02), (0x0300, 0x00)])
      { base.cpu with y := 0x01, p := 0x26, pc := 0x8002, budget := 5 } [] = true := by decide +kernel

theorem test_ls7 :
    leaves (start { base.cpu with x := 0x05, p := 0xA5 } [0x9D, 0x00, 0x02] [])
      { base.cpu with x := 0x05, p := 0xA5, pc := 0x8003, budget := 4 } [(0x0205, 0x00)] = true := by decide +kernel

theorem test_ls8 :
    leaves (start { base.cpu with a := 0x5A } [0x8D, 0x00, 0x08] [])
      { base.cpu with a := 0x5A, pc := 0x8003, budget := 3 } [(0x0000, 0x5A), (0x0800, 0x5A), (0x1000, 0x5A), (0x1800, 0x5A)] = true := by decide +kernel

theorem test_ls9 :
    leaves (start { base.cpu with a := 0x5A } [0xAD, 0x00, 0x50] [])
      { base.cpu with p := 0x26, pc := 0x8003, budget := 3 } [] = true := by decide +kernel

theorem test_ls10 :
    leaves (start { base.cpu with a := 0x5A } [0x8D, 0x00, 0x80] [])
      { base.cpu with a := 0x5A, pc := 0x8003, budget := 3 } [(0x8000, 0x8D)] = true := by decide +kernel

theorem test_ls11 :
    leaves (start { base.cpu with a := 0x11, y := 0x01 } [0x91, 0x10] [(0x0010, 0xFF), (0x0011, 0x02)])
      { base.cpu with a := 0x11, y := 0x01, pc := 0x8002, budget := 5 } [(0x0300, 0x11)] = true := by decide +kernel

theorem test_ls12 :
    leaves (start { base.cpu with x := 0x10 } [0xBC, 0x00, 0x02] [(0x0210, 0x00)])
      { base.cpu with x := 0x10, p := 0x26, pc := 0x8003, budget := 3 } [] = true := by decide +kernel

theorem test_tr1 :
    leaves (start base.cpu [0x9A] [])
      { base.cpu with s := 0x00, pc := 0x8001, budget := 1 } [] = true := by decide +kernel

theorem test_tr2 :
    leaves (start base.cpu [0xBA] [])
      { base.cpu with x := 0xFF, p := 0xA4, pc := 0x8001, budget := 1 } [] = true := by decide +kernel

theorem test_tr3 :
    leaves (start { base.cpu with y := 0x33 } [0xA8] [])
      { base.cpu with p := 0x26, pc := 0x8001, budget := 1 } [] = true := by decide +kernel

theorem test_tr4 :
    leaves (start { base.cpu with x := 0x80 } [0x8A] [])
      { base.cpu with a := 0x80, x := 0x80, p := 0xA4, pc := 0x8001, budget := 1 } [] = true := by decide +kernel

theorem test_st1 :
    leaves (start base.cpu [0x08] [])
      { base.cpu with s := 0xFE, pc := 0x8001, budget := 2 } [(0x01FF, 0x34)] = true := by decide +kernel

theorem test_st2 :
    leaves (start { base.cpu with s := 0xFE } [0x28] [(0x01FF, 0xFF)])
      { base.cpu with p := 0xEF, pc := 0x8001, budget := 3 } [] = true := by decide +kernel

theorem test_st3 :
    leaves (start base.cpu [0x68] [(0x0100, 0x80)])
      { base.cpu with a := 0x80, s := 0x00, p := 0xA4, pc := 0x8001, budget := 3 } [] = true := by decide +kernel

theorem test_st4 :
    leaves (start { base.cpu with a := 0x77, s := 0x00 } [0x48] [])
      { base.cpu with a := 0x77, pc := 0x8001, budget := 2 } [(0x0100, 0x77)] = true := by decide +kernel

theorem test_st5 :
    leaves (start { base.cpu with s := 0xFE } [0x28] [(0x01FF, 0x00)])
      { base.cpu with p := 0x20, pc := 0x8001, budget := 3 } [] = true := by decide +kernel

theorem test_lg1 :
    leaves (start { base.cpu with a := 0xF0 } [0x29, 0x0F] [])
      { base.cpu with p := 0x26, pc := 0x8002, budget := 1 } [] = true := by decide +kernel

theorem test_lg2 :
    leaves (start base.cpu [0x49, 0xFF] [])
      { base.cpu with a := 0xFF, p := 0xA4, pc := 0x8002, budget := 1 } [] = true := by decide +kernel

theorem test_lg3 :
    leaves (start { base.cpu with a := 0x80 } [0x09, 0x01] [])
      { base.cpu with a := 0x81, p := 0xA4, pc := 0x8002, budget := 1 } [] = true := by decide +kernel

theorem test_lg4 :
    leaves (start { base.cpu with a := 0x3F } [0x24, 0x10] [(0x0010, 0xC0)])
      { base.cpu with a := 0x3F, p := 0xE6, pc := 0x8002, budget := 2 } [] = true := by decide +kernel

theorem test_lg5 :
    leaves (start { base.cpu with a := 0x01, p := 0xE4 } [0x2C, 0x00, 0x02] [(0x0200, 0x01)])
      { base.cpu with a := 0x01, pc := 0x8003, budget := 3 } [] = true := by decide +kernel

theorem test_id1 :
    leaves (start { base.cpu with p := 0x25 } [0xE6, 0x10] [(0x0010, 0xFF)])
      { base.cpu with p := 0x27, pc := 0x8002, budget := 4 } [(0x0010, 0x00)] = true := by decide +kernel

theorem test_id2 :
    leaves (start base.cpu [0xCA] [])
      { base.cpu with x := 0xFF, p := 0xA4, pc := 0x8001, budget := 1 } [] = true := by decide +kernel

theorem test_id3 :
    leaves (start { base.cpu with y := 0x7F } [0xC8] [])
      { base.cpu with y := 0x80, p := 0xA4, pc := 0x8001, budget := 1 } [] = true := by decide +kernel

theorem test_id4 :
    leaves (start { base.cpu with x := 0x01 } [0xFE, 0xFF, 0x02] [(0x0300, 0x00)])
      { base.cpu with x := 0x01, pc := 0x8003, budget := 6 } [(0x0300, 0x01)] = true := by decide +kernel

theorem test_id5 :
    leaves (start { base.cpu with x := 0x02 } [0xD6, 0xFF] [(0x0001, 0x01)])
      { base.cpu with x := 0x02, p := 0x26, pc := 0x8002, budget := 5 } [(0x0001, 0x00)] = true := by decide +kernel

theorem test_sh1 :
    leaves (start { base.cpu with a := 0x80 } [0x0A] [])
      { base.cpu with p := 0x27, pc := 0x8001, budget := 1 } [] = true := by decide +kernel

theorem test_sh2 :
    leaves (start { base.cpu with a := 0x01 } [0x4A] [])
      { base.cpu with p := 0x27, pc := 0x8001, budget := 1 } [] = true := by decide +kernel

theorem test_sh3 :
    leaves (start { base.cpu with a := 0x80 } [0x2A] [])
      { base.cpu with p := 0x27, pc := 0x8001, budget := 1 } [] = true := by decide +kernel

theorem test_sh4 :
    leaves (start { base.cpu with a := 0x01, p := 0x25 } [0x6A] [])
      { base.cpu with a := 0x80, p := 0xA5, pc := 0x8001, budget := 1 } [] = true := by decide +kernel

theorem test_sh5 :
    leaves (start base.cpu [0x06, 0x10] [(0x0010, 0x40)])
      { base.cpu with p := 0xA4, pc := 0x8002, budget := 4 } [(0x0010, 0x80)] = true := by decide +kernel

theorem test_sh6 :
    leaves (start { base.cpu with p := 0x25 } [0x7E, 0x00, 0x02] [(0x0200, 0x02)])
      { base.cpu with p := 0xA4, pc := 0x8003, budget := 6 } [(0x0200, 0x81)] = true := by decide +kernel

theorem test_ar1 :
    leaves (start { base.cpu with p := 0x25 } [0x69, 0x7F] [])
      { base.cpu with a := 0x80, p := 0xE4, pc := 0x8002, budget := 1 } [] = true := by decide +kernel

theorem test_ar3 :
    leaves (start { base.cpu with a := 0x80 } [0x69, 0x80] [])
      { base.cpu with p := 0x67, pc := 0x8002, budget := 1 } [] = true := by decide +kernel

theorem test_ar5 :
    leaves (start { base.cpu with a := 0x80, p := 0x25 } [0xE9, 0x01] [])
      { base.cpu with a := 0x7F, p := 0x65, pc := 0x8002, budget := 1 } [] = true := by decide +kernel

theorem test_ar6 :
    leaves (start { base.cpu with a := 0x05 } [0xE9, 0x05] [])
      { base.cpu with a := 0xFF, p := 0xA4, pc := 0x8002, budget := 1 } [] = true := by decide +kernel

theorem test_ar8 :
    leaves (start { base.cpu with a := 0x01 } [0xC9, 0xFF] [])
      { base.cpu with a := 0x01, pc := 0x8002, budget := 1 } [] = true := by decide +kernel

theorem test_ar9 :
    leaves (start base.cpu [0xE0, 0x01] [])
      { base.cpu with p := 0xA4, pc := 0x8002, budget := 1 } [] = true := by decide +kernel

theorem test_ar10 :
    leaves (start { base.cpu with y := 0x80 } [0xC0, 0x80] [])
      { base.cpu with y := 0x80, p := 0x27, pc := 0x8002, budget := 1 } [] = true := by decide +kernel

theorem test_ar11 :
    leaves (start { base.cpu with a := 0x10, y := 0x01 } [0x79, 0xFF, 0x02] [(0x0300, 0x20)])
      { base.cpu with a := 0x30, y := 0x01, pc := 0x8003, budget := 4 } [] = true := by decide +kernel

theorem test_ct1 :
    leaves (start { base.cpu with pc := 0x80FD } [0xD0, 0x02] [])
      { base.cpu with pc := 0x8101, budget := 3 } [] = true := by decide +kernel

theorem test_ct2 :
    leaves (start base.cpu [0xF0, 0x10] [])
      { base.cpu with pc := 0x8002, budget := 1 } [] = true := by decide +kernel

theorem test_ct3 :
    leaves (start base.cpu [0x6C, 0xFF, 0x02] [(0x02FF, 0x00), (0x0300, 0x90), (0x0200, 0x80)])
      { base.cpu with pc := 0x9000, budget := 4 } [] = true := by decide +kernel

theorem test_ct4 :
    leaves (start { base.cpu with pc := 0x80FE } [0x20, 0x34, 0x12] [])
      { base.cpu with s := 0xFD, pc := 0x1234, budget := 5 } [(0x01FF, 0x81), (0x01FE, 0x00)] = true := by decide +kernel

theorem test_ct5 :
    leaves (start { base.cpu with s := 0xFD } [0x60] [(0x01FE, 0xFF), (0x01FF, 0xFF)])
      { base.cpu with pc := 0x0000, budget := 5 } [] = true := by decide +kernel

theorem test_ct6 :
    leaves (start { base.cpu with p := 0xE7 } [0x00, 0xEA] [])
      { base.cpu with s := 0xFC, p := 0xE7, pc := 0xA000, budget := 6 } [(0x01FF, 0x80), (0x01FE, 0x02), (0x01FD, 0xF7)] = true := by decide +kernel

theorem test_ct7 :
    leaves (start { base.cpu with s := 0xFC } [0x40] [(0x01FD, 0xFF), (0x01FE, 0x34), (0x01FF, 0x12)])
      { base.cpu with p := 0xEF, pc := 0x1234, budget := 5 } [] = true := by decide +kernel

theorem test_ct8 :
    leaves (start base.cpu [0x10, 0xFE] [])
      { base.cpu with budget := 2 } [] = true := by decide +kernel

theorem test_ct9 :
    leaves (start { base.cpu with pc := 0x8100 } [0x90, 0x80] [])
      { base.cpu with pc := 0x8082, budget := 3 } [] = true := by decide +kernel

theorem test_fl1 :
    leaves (start { base.cpu with a := 0x12, p := 0xE7 } [0xEA] [])
      { base.cpu with a := 0x12, p := 0xE7, pc := 0x8001, budget := 1 } [] = true := by decide +kernel

theorem test_fl2 :
    leaves (start base.cpu [0x58] [])
      { base.cpu with p := 0x20, pc := 0x8001, budget := 1 } [] = true := by decide +kernel

theorem test_fl3 :
    leaves (start { base.cpu with p := 0x64 } [0xB8] [])
      { base.cpu with pc := 0x8001, budget := 1 } [] = true := by decide +kernel

theorem test_fl4 :
    leaves (start { base.cpu with a := 0x05, p := 0x25 } [0xE7, 0x10] [(0x0010, 0xFF)])
      { base.cpu with a := 0x05, p := 0x25, pc := 0x8002, budget := 4 } [(0x0010, 0x00)] = true := by decide +kernel

theorem test_fl5 :
    leaves (start { base.cpu with p := 0x25 } [0xFF, 0x00, 0x02] [(0x0200, 0x00)])
      { base.cpu with a := 0xFF, p := 0xA4, pc := 0x8003, budget := 6 } [(0x0200, 0x01)] = true := by decide +kernel

theorem test_fl7 :
    leaves (start base.cpu [0xF8] [])
      { base.cpu with p := 0x2C, pc := 0x8001, budget := 1 } [] = true := by decide +kernel

/-- R402. -/
theorem test_h1 :
    leaves (start { base.cpu with p := 0x26 } [0xA2, 0x80] [])
      { base.cpu with x := 0x80, p := 0xA4, pc := 0x8002, budget := 1 } [] = true := by decide +kernel

/-- R403. -/
theorem test_h2 :
    leaves (start { base.cpu with p := 0x26 } [0xA0, 0x7F] [])
      { base.cpu with y := 0x7F, pc := 0x8002, budget := 1 } [] = true := by decide +kernel

/-- R405, R316. -/
theorem test_h3 :
    leaves (start { base.cpu with x := 0x80, y := 0x10 } [0x96, 0xF8] [])
      { base.cpu with x := 0x80, y := 0x10, pc := 0x8002, budget := 3 } [(0x0008, 0x80)] = true := by decide +kernel

/-- R406. -/
theorem test_h4 :
    leaves (start { base.cpu with y := 0x81 } [0x8C, 0x00, 0x03] [])
      { base.cpu with y := 0x81, pc := 0x8003, budget := 3 } [(0x0300, 0x81)] = true := by decide +kernel

/-- R451. -/
theorem test_h5 :
    leaves (start { base.cpu with a := 0x80 } [0xAA] [])
      { base.cpu with a := 0x80, x := 0x80, p := 0xA4, pc := 0x8001, budget := 1 } [] = true := by decide +kernel

/-- R454. -/
theorem test_h6 :
    leaves (start { base.cpu with a := 0x11 } [0x98] [])
      { base.cpu with p := 0x26, pc := 0x8001, budget := 1 } [] = true := by decide +kernel

/-- R801. -/
theorem test_h7 :
    leaves (start { base.cpu with p := 0x25 } [0x18] [])
      { base.cpu with pc := 0x8001, budget := 1 } [] = true := by decide +kernel

/-- R802. -/
theorem test_h8 :
    leaves (start base.cpu [0x38] [])
      { base.cpu with p := 0x25, pc := 0x8001, budget := 1 } [] = true := by decide +kernel

/-- R804. -/
theorem test_h9 :
    leaves (start { base.cpu with p := 0x20 } [0x78] [])
      { base.cpu with pc := 0x8001, budget := 1 } [] = true := by decide +kernel

/-- R806. -/
theorem test_h10 :
    leaves (start { base.cpu with p := 0x2C } [0xD8] [])
      { base.cpu with pc := 0x8001, budget := 1 } [] = true := by decide +kernel

/-- R606. -/
theorem test_h11 :
    leaves (start base.cpu [0x88] [])
      { base.cpu with y := 0xFF, p := 0xA4, pc := 0x8001, budget := 1 } [] = true := by decide +kernel

/-- R603. -/
theorem test_h12 :
    leaves (start { base.cpu with x := 0xFF, p := 0x25 } [0xE8] [])
      { base.cpu with p := 0x27, pc := 0x8001, budget := 1 } [] = true := by decide +kernel

/-- R752. -/
theorem test_h13 :
    leaves (start { base.cpu with p := 0xA4 } [0x30, 0x02] [])
      { base.cpu with p := 0xA4, pc := 0x8004, budget := 2 } [] = true := by decide +kernel

/-- R753. -/
theorem test_h14 :
    leaves (start { base.cpu with p := 0x64 } [0x50, 0x02] [])
      { base.cpu with p := 0x64, pc := 0x8002, budget := 1 } [] = true := by decide +kernel

/-- R754. -/
theorem test_h15 :
    leaves (start { base.cpu with p := 0x64 } [0x70, 0x02] [])
      { base.cpu with p := 0x64, pc := 0x8004, budget := 2 } [] = true := by decide +kernel

/-- R756. -/
theorem test_h16 :
    leaves (start { base.cpu with p := 0x25 } [0xB0, 0x02] [])
      { base.cpu with p := 0x25, pc := 0x8004, budget := 2 } [] = true := by decide +kernel

/-- R760. -/
theorem test_h17 :
    leaves (start base.cpu [0x4C, 0x34, 0x12] [])
      { base.cpu with pc := 0x1234, budget := 2 } [] = true := by decide +kernel

/-- R710, R317: `5 - 3 - 1`. -/
theorem test_h18 :
    leaves (start { base.cpu with a := 0x05 } [0xE1, 0x10] [(0x0010, 0x00), (0x0011, 0x03), (0x0300, 0x03)])
      { base.cpu with a := 0x01, p := 0x25, pc := 0x8002, budget := 5 } [] = true := by decide +kernel

/-- CT3w: `JMP_IND_PAGE_WRAP` true (D10). -/
theorem test_ct3w :
    leaves { start base.cpu [0x6C, 0xFF, 0x02] [(0x02FF, 0x00), (0x0300, 0x90), (0x0200, 0x80)] with
        cfg := { base.cfg with jmpIndPageWrap := true } }
      { base.cpu with pc := 0x8000, budget := 4 } [] = true := by decide +kernel

/-- FL6, SC5: a decode failure, the step after it, and no more dots. -/
theorem test_fl6 :
    runs (start base.cpu [0x02] []) (fun t => decide (t.cpu = { base.cpu with fault := some ⟨0x02, 0x8000⟩ }) && t.dotsTotal == 3 &&
      stopsWith t (.decodeFailure 0x02 0x8000)) = true := by decide +kernel

/-! ## Interrupts (spec/95, 2.10) -/

/-- A NOP at `$8000` with the interrupt sources given. -/
def waiting (p sp : Byte) (nmi reset irq : Bool) : State :=
  let s := start { base.cpu with p := p, s := sp, resetPending := reset } [0xEA] []
  { s with nmiLine := nmi, host := { s.host with irqLine := irq } }

theorem test_in1 :
    leaves (waiting 0x20 0xFF false false true) { base.cpu with s := 0xFC, p := 0x24, pc := 0xA000, budget := 6 }
      [(0x01FF, 0x80), (0x01FE, 0x00), (0x01FD, 0x20)] = true := by decide +kernel

theorem test_in2 :
    leaves (waiting 0x24 0xFF false false true) { base.cpu with pc := 0x8001, budget := 1 } [(0x01FF, 0x00)] = true := by decide +kernel

theorem test_in3 :
    runs (waiting 0x24 0xFF true true true) (fun t =>
      decide (t.cpu = { base.cpu with s := 0xFC, pc := 0xB000, budget := 6, resetPending := true }) && !t.nmiLine &&
        peek 0x01FD t == 0x24) = true := by decide +kernel

theorem test_in4 :
    leaves (waiting 0xE7 0xFF false true false) { base.cpu with s := 0xFC, p := 0xE7, budget := 6 }
      [(0x01FF, 0x80), (0x01FE, 0x00), (0x01FD, 0xE7)] = true := by decide +kernel

theorem test_in5 :
    leaves (waiting 0x24 0x01 true false false) { base.cpu with s := 0xFE, pc := 0xB000, budget := 6 }
      [(0x0101, 0x80), (0x0100, 0x00), (0x01FF, 0x24)] = true := by decide +kernel

/-! ## PPU registers (spec/95, 2.11) -/

/-- Register accesses in order: writes, from a PPU. -/
def wrote (mir : Mirroring) (l : List (RegIndex × Byte)) (q : Ppu) : Ppu := l.foldl (fun q e => ppuRegWrite mir e.1 e.2 q) q

/-- Two reads of a register: both answers, and the PPU after. -/
def readTwice (mir : Mirroring) (r : RegIndex) (q : Ppu) : Byte × Byte × Ppu :=
  let a := ppuRegRead mir r q
  let b := ppuRegRead mir r a.2
  (a.1, b.1, b.2)

theorem test_pr1 :
    readTwice .vertical 2 { Ppu.zero with vblank := true, s0hit := true, w := true } = (0xC0, 0x40, { Ppu.zero with s0hit := true }) := by
  decide

theorem test_pr2 :
    wrote .vertical [(5, 0x7D), (5, 0x5E)] Ppu.zero = { Ppu.zero with fineX := 5, t := 0x616F } := by decide

theorem test_pr3 :
    wrote .vertical [(0, 0x03)] { Ppu.zero with t := 0x616F } = { Ppu.zero with t := 0x6D6F, ctrl := 0x03 } := by decide

theorem test_pr4 :
    wrote .vertical [(6, 0xFF), (6, 0x10)] Ppu.zero = { Ppu.zero with t := 0x3F10, v := 0x3F10 } := by decide

theorem test_pr5 :
    ppuRegRead .vertical 7 (wrote .vertical [(7, 0x2A), (6, 0x3F), (6, 0x00)] { Ppu.zero with v := 0x3F10 }) =
      (0x2A, { Ppu.zero with pal := [(0, 0x2A)], t := 0x3F00, v := 0x3F01 }) := by decide

theorem test_pr6 : (wrote .vertical [(7, 0x01)] { Ppu.zero with v := 0x2000, ctrl := 0x04 }).v = 0x2020 := by decide

theorem test_pr7 :
    wrote .vertical [(7, 0x09)] { Ppu.zero with v := 0x7FFF } = { Ppu.zero with pal := [(0x1F, 0x09)] } := by decide

theorem test_pr8 :
    ppuRegRead .vertical 7 { Ppu.zero with v := 0x2000, readBuf := 0x99, ciram := [(0, 0x11)] } =
      (0x99, { Ppu.zero with v := 0x2001, readBuf := 0x11, ciram := [(0, 0x11)] }) := by decide

theorem test_pr9_pr10_pr11 :
    (applyRegWrite 0 0x80 { base with ppu := { Ppu.zero with vblank := true } }).nmiLine = true ∧
      (applyRegWrite 0 0x80 { base with ppu := { Ppu.zero with vblank := true, ctrl := 0x80 } }).nmiLine = false ∧
      (applyRegWrite 0 0x80 { base with ppu := Ppu.zero }).nmiLine = false := by decide

theorem test_pr12 :
    wrote .vertical [(3, 0xFF), (4, 0xAB)] { Ppu.zero with oamAddr := 0xFF } = { Ppu.zero with oam := [(0xFF, 0xAB)] } := by decide

theorem test_pr13 :
    (([0, 1, 3, 4, 5, 6] : List RegIndex).all fun r => decide (ppuRegRead .vertical r { Ppu.zero with v := 5, w := true } =
      (0, { Ppu.zero with v := 5, w := true }))) = true ∧ wrote .vertical [(2, 0xFF)] Ppu.zero = Ppu.zero := by decide

theorem test_pr14_pr15_pr16 :
    (readTwice .vertical 7 (wrote .vertical [(7, 0x5C), (6, 0x20), (6, 0x00)] { Ppu.zero with v := 0x2800 })).2.1 = 0x5C ∧
      (readTwice .horizontal 7 (wrote .horizontal [(7, 0x5C), (6, 0x20), (6, 0x00)] { Ppu.zero with v := 0x2400 })).2.1 = 0x5C ∧
      (readTwice .vertical 7 (wrote .vertical [(7, 0x3D), (6, 0x20), (6, 0x00)] { Ppu.zero with v := 0x3000 })).2.1 = 0x3D := by decide

theorem test_pr17 :
    (wrote .vertical [(6, 0x21), (6, 0x08)] (ppuRegRead .vertical 2 (wrote .vertical [(6, 0x3F)] Ppu.zero)).2).v = 0x2108 := by decide

/-- `n` reads of an address, the answers in order. -/
def readsOf (a : Word) : Nat → State → List Byte
  | 0, _ => []
  | n + 1, s => (busRead a s).1 :: readsOf a n (busRead a s).2

theorem test_pr18 :
    readsOf 0x4016 9 (busWrite 0x4016 0x00 (busWrite 0x4016 0x01
      { base with host := { base.host with buttons := [true, false, false, true, false, false, false, false] } })) =
      [0x01, 0x00, 0x00, 0x01, 0x00, 0x00, 0x00, 0x00, 0x01] := by decide +kernel

/-! ## Rendering (spec/95, 2.12) and the scheduler (2.13) -/

theorem test_rv1 : incX 0x001F = 0x0400 ∧ incX 0x041F = 0x0000 ∧ incX 0x0005 = 0x0006 := by decide

theorem test_rv2 :
    incY 0x0000 = 0x1000 ∧ incY 0x73A0 = 0x0800 ∧ incY 0x7BA0 = 0x0000 ∧ incY 0x73C0 = 0x03E0 ∧ incY 0x73E0 = 0x0000 := by decide

theorem test_rv3_rv4 :
    (bgScroll { Ppu.zero with dot := 257, v := 0x7FFF }).v = 0x7BE0 ∧
      (bgScroll { Ppu.zero with scanline := 261, dot := 280, v := 0x7FFF }).v = 0x041F := by decide

theorem test_rv5_rv6_rv7 :
    ntAddr 0x0525 = 0x2525 ∧ atAddr 0x0525 = 0x27D1 ∧ atSelect 0xE4 0x0525 = 0 ∧ atSelect 0x1B 0x0525 = 3 ∧
      atAddr 0x0042 = 0x23C0 ∧ atSelect 0xC0 0x0042 = 3 ∧ bgPatAddr 0x10 0x12 0x3000 = 0x1123 := by decide

theorem test_rv8 : flipped 0x40 0x01 = 0x80 ∧ flipped 0x40 0x03 = 0xC0 ∧ flipped 0x00 0x03 = 0x03 := by decide

theorem test_rv9 :
    compose 0x1 (some ⟨0x11, false, 0⟩) = 0x01 ∧ compose 0x1 (some ⟨0x11, true, 0⟩) = 0x11 ∧ compose 0xC none = 0 := by decide

/-- SC3: the queued write of `STA $2000`. -/
theorem test_sc3 :
    runs { start { base.cpu with a := 0x80 } [0x8D, 0x00, 0x20] [] with cfg := { base.cfg with delayedRegs := [0] } } (fun t =>
      decide (t.wq = [⟨6, 0, 0x80⟩]) && t.ppu.ctrl == 0 &&
        runs t fun u => u.ppu.ctrl == 0 && runs u fun v => v.ppu.ctrl == 0x80 && v.wq.isEmpty) = true := by decide +kernel

/-- SC4: a halted machine stands still. -/
theorem test_sc4 :
    runs { base with host := { base.host with run := false } } (fun t => decide (t = { base with host := { base.host with run := false } }))
      = true := by decide +kernel

/-- SC6: `RESET_REQ` before a step at a boundary is serviced in it, as IN4. -/
theorem test_sc6 :
    leaves { waiting 0xE7 0xFF false false false with
        host := { base.host with inputs := [⟨true, true, false, false⟩] } }
      { base.cpu with s := 0xFC, p := 0xE7, budget := 6 } [(0x01FD, 0xE7)] = true := by decide +kernel

/-! ## The interface: a program's word placed where the first step fetches -/

theorem test_with_fetch_word :
    runs (State.reset.withFetchWord 16 0x80A9) (fun t => t.cpu.a == 0x80 && t.cpu.budget == 1) = true ∧
      runs (State.reset.withFetchWord 8 0x02) (fun t => decide (t.cpu.fault = some ⟨0x02, 0x0000⟩)) = true := by decide +kernel

/-! ## States that meet the hypotheses of the obligations -/

/-- A boundary state at an address with an instruction's bytes in place. -/
def at_ (pc : Word) (bytes : List Byte) : State := start { base.cpu with pc := pc } bytes []

/-- The premise of every clause about a cost: a machine with the table's costs. -/
theorem witness_table_costs : State.reset.cfg.cycleOverrides = [] := by decide

theorem witness_DecodeOfEncodeIsTheInstruction :
    (Instr.iscAbsx 0xFFFF).wf Config.default = true ∧ (Instr.decodeFailure 0xFC).wf Config.default = true ∧
      (Instr.decodeFailure 0xE3).wf { Config.default with iscOpcodes := [] } = true := by decide

theorem witness_EncodeOfDecodeIsTheBytes :
    decode Config.default [0x6C, 0xFF, 0xFF, 0xEA] = .ok (.jmpInd 0xFFFF, [0xEA]) ∧
      decode Config.default [0xFF, 0x00, 0x00] = .ok (.iscAbsx 0x0000, []) ∧
      decode Config.default [0x02] = .ok (.decodeFailure 0x02, []) := by decide

/-- The map's first and last cells, and an ISC cell admitted and not. -/
theorem witness_UnlistedOpcodesAreDecodeFailures_map :
    0x00 ∈ impliedRows.map (·.1) ∧ 0xFF ∈ absxRows.map (·.1) ∧ (Mnemonic.brk ≠ .isc ∨ 0x00 ∈ Config.default.iscOpcodes) ∧
      (Mnemonic.isc ≠ .isc ∨ 0xFF ∈ Config.default.iscOpcodes) ∧
      ¬(Mnemonic.isc ≠ .isc ∨ 0xFF ∈ { Config.default with iscOpcodes := [] }.iscOpcodes) := by decide

/-- A one-byte instruction in the last byte of work RAM's window and of ROM, a three-byte one across `$FFFF`. -/
theorem witness_FetchReadsTheInstructionAtPc :
    (∃ s : State, s.cpu.pc = 0x1FFF ∧ (∀ k, k < (encode .nop).length → placeable s.cfg (s.cpu.pc + BitVec.ofNat 16 k) = true) ∧
      decode s.cfg [peek s.cpu.pc s, peek (s.cpu.pc + 1) s, peek (s.cpu.pc + 2) s] = .ok (.nop, [0, 0])) ∧
    (∃ s : State, s.cpu.pc = 0xFFFF ∧
      (∀ k, k < (encode (.jsr 0x1234)).length → placeable s.cfg (s.cpu.pc + BitVec.ofNat 16 k) = true) ∧
      decode s.cfg [peek s.cpu.pc s, peek (s.cpu.pc + 1) s, peek (s.cpu.pc + 2) s] = .ok (.jsr 0x1234, [])) :=
  ⟨⟨at_ 0x1FFF [0xEA], by decide +kernel⟩, ⟨at_ 0xFFFF [0x20, 0x34, 0x12], by decide +kernel⟩⟩

/-- An instruction of each length. -/
theorem witness_FetchReadsTheInstructionAtPc_lengths :
    let n (opc : Byte) : Nat :=
      (encode (decodeOp base.cfg (busRead 0x8000 (start base.cpu [opc, 0x34, 0x12] [])).1 0 0)).length
    n 0xA9 = 2 ∧ n 0x8D = 3 ∧ n 0xAA = 1 ∧ n 0x02 = 1 := by decide +kernel

theorem witness_StepRunsTheDecodedInstruction :
    ∃ (s t : State), (takeInputs s).host.run = true ∧ s.cpu.fault = none ∧ s.cpu.budget = 0 ∧
      pendingInterrupt (dots (takeInputs s)) = none ∧
      (∀ k, k < (encode (.ldaAbs 0x2002)).length → placeable s.cfg (s.cpu.pc + BitVec.ofNat 16 k) = true) ∧
      decode s.cfg [peek s.cpu.pc s, peek (s.cpu.pc + 1) s, peek (s.cpu.pc + 2) s] = .ok (.ldaAbs 0x2002, []) ∧
      exec (.ldaAbs 0x2002) ((dots (takeInputs s)).setPc (s.cpu.pc + BitVec.ofNat 16 (encode (.ldaAbs 0x2002)).length)) = .next t :=
  have h := next_of_goesOn (r := exec (.ldaAbs 0x2002)
    ((dots (takeInputs (at_ 0x8000 [0xAD, 0x02, 0x20]))).setPc 0x8003)) (by decide +kernel)
  ⟨at_ 0x8000 [0xAD, 0x02, 0x20], h.choose, by decide +kernel, by decide +kernel, by decide +kernel, by decide +kernel,
    by decide +kernel, by decide +kernel, h.choose_spec⟩

theorem witness_EveryStepKeepsTheMachineInvariant : ∃ s t : State, s.Inv ∧ s.wq ≠ [] ∧ step s = .next t :=
  let s := { at_ 0x8000 [0x20, 0x34, 0x12] with wq := [⟨2, 1, 0x18⟩, ⟨5, 5, 0x07⟩] }
  have h := next_of_runs (s := s) (check := fun _ => true) (by decide +kernel)
  ⟨s, h.choose, by decide +kernel, by decide +kernel, h.choose_spec⟩

theorem witness_PowerOnMeetsTheMachineInvariant :
    State.reset.Inv ∧
      (State.powerOnChecked { Config.default with controller := .absent } image { PowerOnInit.zero with wram := [(0x7FF, 1)] }).isSome = true ∧
      Memory.ok wramSize [(0x7FF, 1)] = true ∧ Memory.ok ciramSize [(0x7FF, 1)] = true ∧ Memory.ok palSize [(0x1F, 1)] = true ∧
      Memory.ok oamSize [(0xFF, 1)] = true ∧ Memory.ok oam2Size Ppu.zero.oam2 = true ∧ Ppu.zero.spr.length = 8 ∧
      Ppu.zero.oam2Count ≤ 8 := by decide

theorem witness_DelayedWritesLandBeforeTheNextBoundary :
    (∃ s t : State, s.cfg.StandardTiming ∧ s.QueueTimely ∧ s.wq ≠ [] ∧ step s = .next t) ∧
    (∃ s : State, s.cfg.StandardTiming ∧ s.QueueTimely ∧ s.wq ≠ [] ∧ (takeInputs s).host.run = true ∧ s.cpu.fault = none ∧
      s.cpu.budget = 0) :=
  let s := { base with cpu := { base.cpu with budget := 1 }, wq := [⟨3, 0, 0x80⟩] }
  have h := next_of_runs (s := s) (check := fun _ => true) (by decide +kernel)
  ⟨⟨s, h.choose, by decide +kernel, by decide +kernel, by decide +kernel, h.choose_spec⟩,
    ⟨{ base with wq := [⟨0, 0, 0x80⟩] }, by decide +kernel⟩⟩

theorem witness_NoStepWritesProgramRom : ∃ s t : State, s.cpu.a = 0x5A ∧ step s = .next t :=
  let s := start { base.cpu with a := 0x5A } [0x8D, 0x00, 0x80] []
  have h := next_of_runs (s := s) (check := fun _ => true) (by decide +kernel)
  ⟨s, h.choose, rfl, h.choose_spec⟩

theorem witness_SinkReadinessNeverReachesTheCore :
    ∃ s t : State, s.ppu.dot = 1 ∧ s.ppu.scanline = 5 ∧ s.host.sinkReady = true ∧ step s = .next t :=
  let s := { at_ 0x8000 [0xEA] with
    ppu := { base.ppu with scanline := 5, dot := 1 }, host := { base.host with sinkReady := true } }
  have h := next_of_runs (s := s) (check := fun _ => true) (by decide +kernel)
  ⟨s, h.choose, rfl, rfl, rfl, h.choose_spec⟩

theorem witness_OnlyADecodeFailureFaults :
    Instr.brk.mnemonic ≠ .decodeFailure ∧ (Instr.decodeFailure 0xFC).mnemonic = .decodeFailure := by decide

/-- Each clause at the ends of its range: `$0000`, `$1FFF`, `$2000`, `$3FFF`, `$4000`, `$4016` absent, `$7FFF`, `$8000`, `$FFFF`. -/
theorem witness_BusWritesReachTheirByteOnly :
    base.wram.wf = true ∧
      ((0x1FFF : Word).toNat < 0x2000 ∧ (0x07FF : Word).toNat < 0x2000 ∧ (0x07FF : Word).toNat % 0x800 = (0x1FFF : Word).toNat % 0x800) ∧
      ¬(deviceOf base.cfg 0x2000 = .wram) ∧ ¬(deviceOf base.cfg 0x3FFF = .wram) ∧ (0x8000 ≤ (0x8000 : Word).toNat ∧ 0x8000 ≤ (0xFFFF : Word).toNat) ∧
      (0x4000 ≤ (0x4000 : Word).toNat ∧ (0x4000 : Word).toNat < 0x8000 ∧ (0x4000 : Word) ≠ 0x4016) ∧
      (0x4000 ≤ (0x7FFF : Word).toNat ∧ (0x7FFF : Word).toNat < 0x8000 ∧ (0x7FFF : Word) ≠ 0x4016) ∧
      (0x4000 ≤ (0x4016 : Word).toNat ∧ (0x4016 : Word).toNat < 0x8000 ∧ { Config.default with controller := .absent }.controller = .absent) := by
  decide

/-- The second clause within work RAM: the last byte of a mirror and its neighbour. -/
theorem witness_BusWritesReachTheirByteOnly_neighbour :
    ¬(deviceOf base.cfg 0x1FFF = .wram ∧ sameCell base.cfg 0x1FFF 0x0000) := fun h =>
  absurd (show wramIndex 0x1FFF = wramIndex 0x0000 from h.2.2) (by decide)

/-- A machine at a PPU position, with registers of the PPU given. -/
def atDot (q : Ppu) (scanline dot : Nat) : State := { base with ppu := { q with scanline := scanline, dot := dot } }

theorem witness_OtherReadsHaveNoSideEffect :
    (0x1FFF : Word).toNat < 0x2000 ∧ 0x8000 ≤ (0x8000 : Word).toNat ∧
      (0x2000 ≤ (0x2000 : Word).toNat ∧ (0x2000 : Word).toNat < 0x4000 ∧ (0x2000 : Word).toNat % 8 ≠ 2 ∧ (0x2000 : Word).toNat % 8 ≠ 7) ∧
      (0x2000 ≤ (0x3FFE : Word).toNat ∧ (0x3FFE : Word).toNat < 0x4000 ∧ (0x3FFE : Word).toNat % 8 ≠ 2 ∧ (0x3FFE : Word).toNat % 8 ≠ 7) ∧
      (0x3FFF : Word).toNat % 8 = (0x2007 : Word).toNat % 8 := by decide

/-- R1020, R1070: a bus read of `$2002` through its last mirror clears `vblank` and `w`; one of `$2007` moves `v`. -/
theorem test_window_reads :
    let s := atDot { Ppu.zero with vblank := true, w := true, readBuf := 0x5A, v := 0x2000 } 0 0
    (busRead 0x3FFA s).1 = 0x80 ∧ (busRead 0x3FFA s).2.ppu.vblank = false ∧ (busRead 0x3FFA s).2.ppu.w = false ∧
      (busRead 0x2007 s).1 = 0x5A ∧ (busRead 0x2007 s).2.ppu.v = 0x2001 := by decide +kernel

theorem witness_ControllerPortShiftsEightButtons :
    Config.default.controller = .standard ∧ (busWrite 0x4016 0x01 base).pad.strobe = true ∧ base.pad.strobe = false ∧
      base.pad.index < 8 ∧ (⟨false, 7⟩ : Pad).index < 8 ∧ 8 ≤ (⟨false, 8⟩ : Pad).index ∧
      { base.host with buttons := [true] }.buttons = true :: [] := by decide

theorem witness_PpuBusReadsBackWhatWasWritten :
    Memory.wf [(0x1FFF, 1)] = true ∧ Memory.wf [(0, 1), (0x7FF, 2)] = true ∧ Memory.wf [(0x1F, 0x3F)] = true ∧
      ppuCell .horizontal 0x3F10 = ppuCell .horizontal 0x7F00 ∧ ppuCell .vertical 0x2800 = ppuCell .vertical 0x3000 ∧
      ppuCell .vertical 0x3EFF ≠ ppuCell .vertical 0x3F00 ∧ ppuCell .vertical 0x1FFF ≠ ppuCell .vertical 0x2000 ∧
      (0x5FFF : Word).toNat % 0x4000 < 0x2000 ∧
      (0x2000 ≤ (0x2000 : Word).toNat % 0x4000 ∧ (0x2000 : Word).toNat % 0x4000 < 0x3F00) ∧
      (0x2000 ≤ (0x7EFF : Word).toNat % 0x4000 ∧ (0x7EFF : Word).toNat % 0x4000 < 0x3F00) ∧
      0x3F00 ≤ (0x3F00 : Word).toNat % 0x4000 ∧ 0x3F00 ≤ (0x7FFF : Word).toNat % 0x4000 := by decide

theorem witness_NametablesAreMirroredInPairs :
    (3 < 4 ∧ 0 < 4 ∧ 0x3FF < 0x400) ∧ 0x400 * 3 + 0x2FF < 0xF00 ∧ ¬(0x400 * 3 + 0x300 < 0xF00) := by decide

theorem witness_LoadsWriteTheirRegisterAndNZ :
    (Instr.ldaIzy 0xFF).mnemonic = .lda ∧ (Instr.ldxZpy 0xFF).mnemonic = .ldx ∧ (Instr.ldyAbsx 0xFFFF).mnemonic = .ldy := by decide

theorem witness_StoresWriteTheirRegisterOnce :
    (Instr.staIzy 0xFF).mnemonic = .sta ∧ (Instr.stxZpy 0xFF).mnemonic = .stx ∧ (Instr.styAbs 0x2007).mnemonic = .sty := by decide

/-- `A = $F0`, operand `$3C`: the three results. -/
theorem witness_LogicCombinesAWithTheOperand :
    let s := { base with cpu := { base.cpu with a := 0xF0 } }
    ((Instr.andImm 0x3C).mnemonic = .and ∧
      ∀ k < 8, (0x30 : Byte).getLsbD k = (s.cpu.a.getLsbD k && (operand (.andImm 0x3C) s).1.getLsbD k)) ∧
    ((Instr.eorImm 0x3C).mnemonic = .eor ∧
      ∀ k < 8, (0xCC : Byte).getLsbD k = (s.cpu.a.getLsbD k != (operand (.eorImm 0x3C) s).1.getLsbD k)) ∧
    ((Instr.oraImm 0x3C).mnemonic = .ora ∧
      ∀ k < 8, (0xFC : Byte).getLsbD k = (s.cpu.a.getLsbD k || (operand (.oraImm 0x3C) s).1.getLsbD k)) := by decide +kernel

theorem witness_BitTestsTheOperand : (Instr.bitZp 0x00).mnemonic = .bit ∧ (Instr.bitAbs 0xFFFF).mnemonic = .bit := by decide

theorem witness_IncrementsAndDecrementsWrap :
    (Instr.incAbsx 0xFFFF).mnemonic = .inc ∧ (Instr.decZpx 0xFF).mnemonic = .dec := by decide

/-- `$81` with C set, on A and in memory. -/
theorem witness_ShiftsMoveOneBitThroughCarry :
    let s := start { base.cpu with a := 0x81, p := 0x25 } [0xEA] [(0x00FF, 0x81)]
    let m := (operand (.rolZp 0xFF) s).1
    (m = 0x81 ∧ (operand .aslAcc s).1 = 0x81) ∧
    ((Instr.aslAcc).mnemonic = .asl ∧ (0x02 : Byte).toNat = 2 * (operand .aslAcc s).1.toNat % 256 ∧
      true = decide (128 ≤ (operand .aslAcc s).1.toNat)) ∧
    ((Instr.lsrZp 0xFF).mnemonic = .lsr ∧ (0x40 : Byte).toNat = m.toNat / 2 ∧ true = decide (m.toNat % 2 = 1)) ∧
    ((Instr.rolZp 0xFF).mnemonic = .rol ∧
      (0x03 : Byte).toNat = (2 * m.toNat + if getFlag .c s.cpu.p then 1 else 0) % 256 ∧ true = decide (128 ≤ m.toNat)) ∧
    ((Instr.rorZp 0xFF).mnemonic = .ror ∧ (0xC0 : Byte).toNat = m.toNat / 2 + 128 * (if getFlag .c s.cpu.p then 1 else 0) ∧
      true = decide (m.toNat % 2 = 1)) := by decide +kernel

theorem witness_AdcAndSbcAddInBinary : (Instr.adcIzx 0xFF).mnemonic = .adc ∧ (Instr.sbcAbsy 0xFFFF).mnemonic = .sbc := by decide

/-- `127 + 0 + 1` overflows, `127 + (-128) + 1` and `-128 + 0` do not, `-128 + -1` does. -/
theorem witness_OverflowMeansSignedOverflow :
    (addWithCarry 0x7F 0x00 true).overflow = true ∧ (addWithCarry 0x7F 0x80 true).overflow = false ∧
      (addWithCarry 0x80 0x00 false).overflow = false ∧ (addWithCarry 0x80 0xFF false).overflow = true := by decide

theorem witness_ComparesAreUnsigned :
    ((Instr.cmpAbsy 0xFFFF).mnemonic = .cmp ∧ base.cpu.a = base.cpu.a) ∧ ((Instr.cpxImm 0xFF).mnemonic = .cpx ∧ base.cpu.x = base.cpu.x) ∧
      ((Instr.cpyZp 0xFF).mnemonic = .cpy ∧ base.cpu.y = base.cpu.y) := by decide

theorem witness_IscIncrementsThenSubtracts : (Instr.iscIzy 0xFF).mnemonic = .isc ∧ (Instr.iscAbsy 0xFFFF).mnemonic = .isc := by decide

theorem witness_StoringFormsKeepEveryOtherByte :
    (∃ (s t : State) (ea b : Word), s.wram.wf = true ∧
      (Instr.iscZpx 0xFF).mnemonic ∈ ([.sta, .stx, .sty, .inc, .dec, .asl, .lsr, .rol, .ror, .isc] : List Mnemonic) ∧
      exec (.iscZpx 0xFF) s = .next t ∧ (resolve (.zpx 0xFF) s).op = .mem ea ∧
      ¬(deviceOf s.cfg ea = .wram ∧ sameCell s.cfg ea b)) ∧
    (∃ s t : State, s.wram.wf = true ∧ exec .rorAcc s = .next t) ∧ Instr.rorAcc.mode = .acc :=
  have h := next_of_goesOn (r := exec (.iscZpx 0xFF) base) (by decide +kernel)
  have h' := next_of_goesOn (r := exec .rorAcc base) (by decide +kernel)
  ⟨⟨base, h.choose, 0x00FF, 0x8000, by decide +kernel, by decide, h.choose_spec, by decide +kernel, by
      intro hc
      exact absurd hc.2.1 (by decide)⟩,
    ⟨base, h'.choose, by decide +kernel, h'.choose_spec⟩, rfl⟩

theorem witness_NonStoringFormsKeepMemory :
    ∃ t : State, (Instr.ldaAbs 0x2007).mnemonic ∉
        ([.sta, .stx, .sty, .inc, .dec, .asl, .lsr, .rol, .ror, .isc, .pha, .php, .jsr, .brk] : List Mnemonic) ∧
      exec (.ldaAbs 0x2007) base = .next t :=
  have h := next_of_goesOn (r := exec (.ldaAbs 0x2007) base) (by decide +kernel)
  ⟨h.choose, by decide, h.choose_spec⟩

theorem witness_BoundaryTakesNmiThenResetThenIrq :
    (waiting 0x24 0xFF true true true).nmiLine = true ∧
      ((waiting 0x24 0xFF false true true).nmiLine = false ∧ (waiting 0x24 0xFF false true true).cpu.resetPending = true) ∧
      (let s := waiting 0x20 0xFF false false true
       s.nmiLine = false ∧ s.cpu.resetPending = false ∧ s.host.irqLine = true ∧ getFlag .i s.cpu.p = false) ∧
      (let s := waiting 0x20 0xFF false false false
       s.nmiLine = false ∧ s.cpu.resetPending = false ∧ s.host.irqLine = false) ∧
      (let s := waiting 0x24 0xFF false false true
       s.nmiLine = false ∧ s.cpu.resetPending = false ∧ getFlag .i s.cpu.p = true) := by decide +kernel

/-- Entries with `S = 1`, whose pushes wrap: the handler returned to leaves all as it was. -/
theorem witness_ReturnsUndoEntries :
    let s := waiting 0x24 0x01 false false false
    s.wram.wf = true ∧ getFlag .b s.cpu.p = false ∧ getFlag .u s.cpu.p = true ∧
      (∃ u w, exec (.jsr 0x1234) s = .next u ∧ exec .rts u = .next w) ∧
      (∃ w, exec .rti (service .irq s) = .next w) ∧ (∃ u w, exec .brk s = .next u ∧ exec .rti u = .next w) := by
  intro s
  obtain ⟨u, hu⟩ := next_of_goesOn (r := exec (.jsr 0x1234) s) (by decide +kernel)
  obtain ⟨w, hw⟩ := next_of_goesOn (r := exec .rts u) rfl
  obtain ⟨w', hw'⟩ := next_of_goesOn (r := exec .rti (service .irq s)) (by decide +kernel)
  obtain ⟨v, hv⟩ := next_of_goesOn (r := exec .brk s) (by decide +kernel)
  obtain ⟨x, hx⟩ := next_of_goesOn (r := exec .rti v) rfl
  exact ⟨by decide +kernel, by decide +kernel, by decide +kernel, ⟨u, w, hu, hw⟩, ⟨w', hw'⟩, ⟨v, x, hv, hx⟩⟩

theorem witness_DataPortBuffersBelowThePalette :
    (BitVec.ofNat 16 ((0x3EFF : VramReg).toNat % 0x4000) : Word).toNat < 0x3F00 ∧
      0x3F00 ≤ (BitVec.ofNat 16 ((0x3F00 : VramReg).toNat % 0x4000) : Word).toNat ∧
      (BitVec.ofNat 16 ((0x4000 : VramReg).toNat % 0x4000) : Word).toNat < 0x3F00 ∧
      0x3F00 ≤ (BitVec.ofNat 16 ((0x7FFF : VramReg).toNat % 0x4000) : Word).toNat := by decide

theorem witness_ScrollAndAddressWritesFillT :
    { Ppu.zero with t := 0x7FFF, v := 0x7FFF }.w = false ∧ { Ppu.zero with t := 0x7FFF, w := true }.w = true := by decide

theorem witness_DelayedRegistersAreQueued :
    (0x2000 ≤ (0x2000 : Word).toNat ∧ (0x2000 : Word).toNat < 0x4000 ∧ BitVec.ofNat 3 (0x2000 : Word).toNat ∉ base.cfg.delayedRegs) ∧
      (0x2000 ≤ (0x3FFF : Word).toNat ∧ (0x3FFF : Word).toNat < 0x4000 ∧
        BitVec.ofNat 3 (0x3FFF : Word).toNat ∈ { base.cfg with delayedRegs := [7] }.delayedRegs) := by decide

/-- A queue with two writes due and one not: the due ones go in queue order, so the later byte stands. -/
theorem witness_DelayedRegistersAreQueued_due :
    let before : List QueuedWrite := [⟨4, 3, 0x33⟩]
    let e : QueuedWrite := ⟨0, 1, 0x08⟩
    let after : List QueuedWrite := [⟨0, 1, 0x10⟩]
    let s := { base with wq := before ++ e :: after }
    s.dotsTotal = 0 ∧ (∀ o ∈ before, o.target ≠ s.dotsTotal) ∧ e.target = s.dotsTotal ∧ (applyDue s).ppu.mask = 0x10 ∧
      (applyDue s).ppu.oamAddr = 0x00 ∧ (applyDue s).wq = before ∧ ∀ o ∈ (applyDue s).wq, o.target ≠ (applyDue s).dotsTotal := by
  decide +kernel

/-- The skip on an odd frame, the last dot of an even one, the last dot of a line, and the skip left out with rendering off. -/
theorem witness_PositionAdvancesDotByDot :
    let q := { Ppu.zero with scanline := 261, dot := 339, frame := 1, mask := 0x08 }
    let e := { Ppu.zero with scanline := 261, dot := 340 }
    let l := { Ppu.zero with scanline := 239, dot := 340 }
    (q.scanline ≤ 261 ∧ q.dot ≤ 340 ∧ q.scanline = 261 ∧ q.dot = 339 ∧ q.frame % 2 = 1 ∧ q.mask.getLsbD 3 = true) ∧
      (e.scanline ≤ 261 ∧ e.dot ≤ 340 ∧ e.dot ≠ 339 ∧ 341 * e.scanline + e.dot + 1 = 262 * 341) ∧
      (l.scanline ≤ 261 ∧ l.dot ≤ 340 ∧ l.scanline ≠ 261 ∧ 341 * l.scanline + l.dot + 1 < 262 * 341) ∧
      ¬(Config.default.oddSkipNeedsRendering = false ∨ (0x00 : Byte).getLsbD 3 = true ∨ (0x00 : Byte).getLsbD 4 = true) := by decide

theorem witness_VerticalBlankStartsAndEnds :
    ((atDot Ppu.zero 241 1).ppu.scanline = 241 ∧ (atDot Ppu.zero 241 1).ppu.dot = 1) ∧
      ((atDot Ppu.zero 261 1).ppu.scanline = 261 ∧ (atDot Ppu.zero 261 1).ppu.dot = 1) ∧
      (let s := atDot { Ppu.zero with s0hit := true } 261 0
       ¬(s.ppu.dot = 1 ∧ (s.ppu.scanline = 241 ∨ s.ppu.scanline = 261)) ∧ s.ppu.s0hit = true) := by decide

/-- The dots at which `v` moves, at the ends of their ranges, and dots at which it does not. -/
theorem witness_ScrollIncrementsWrapFieldByField :
    let q := { Ppu.zero with mask := 0x08, t := 0x7FFF }
    let after (line dot : Nat) : VramReg := (ppuDot (atDot q line dot)).ppu.v
    q.mask.getLsbD 3 = true ∧ after 0 8 = 0x0001 ∧ after 239 248 = 0x0001 ∧ after 0 256 = 0x1001 ∧ after 261 328 = 0x0001 ∧
      after 239 336 = 0x0001 ∧ after 239 257 = 0x041F ∧ after 261 257 = 0x041F ∧ after 261 280 = 0x7BE0 ∧ after 261 304 = 0x7BE0 ∧
      after 0 0 = 0 ∧ after 0 280 = 0 ∧ after 261 279 = 0 ∧ after 261 305 = 0 ∧ after 240 257 = 0 ∧ after 0 320 = 0 := by decide +kernel

/-- Each gate alone, at a dot where the other pipeline works, and both. -/
theorem witness_RenderingOffFreezesThePipelines :
    let s := atDot { Ppu.zero with mask := 0xF7, s0hit := true } 5 257
    let r := atDot { Ppu.zero with mask := 0xEF, s0hit := true } 5 257
    let b := atDot { Ppu.zero with mask := 0xE7, s0hit := true } 5 1
    (s.ppu.mask.getLsbD 3 = false ∧ s.ppu.mask.getLsbD 4 = true ∧ (ppuDot s).ppu.s0hit = true) ∧
      (r.ppu.mask.getLsbD 3 = true ∧ r.ppu.mask.getLsbD 4 = false ∧ (ppuDot r).ppu.s0hit = true) ∧
      (b.ppu.mask.getLsbD 3 = false ∧ b.ppu.mask.getLsbD 4 = false ∧ (ppuDot b).ppu.s0hit = true) := by decide +kernel

/-- Sprite 0 over an opaque background at the first and the last column. -/
theorem witness_SpriteZeroHitNeedsBothPixels :
    let q := { Ppu.zero with
      mask := 0x18, s0Cur := true, bgLo := 0x8000, spr := ⟨0x80, 0, 0, 0, true⟩ :: List.replicate 7 Slot.zero }
    (atDot q 0 1).ppu.s0hit = false ∧ (ppuDot (atDot q 0 1)).ppu.s0hit = true ∧ (ppuDot (atDot q 239 256)).ppu.s0hit = true ∧
      (ppuDot (atDot q 0 0)).ppu.s0hit = false ∧ (ppuDot (atDot q 0 257)).ppu.s0hit = false ∧
      (ppuDot (atDot q 240 1)).ppu.s0hit = false := by decide +kernel

theorem witness_EachVisibleDotEmitsOnePixel :
    ((∀ e ∈ ([⟨7, 1, 0x18⟩] : List QueuedWrite), e.target ≠ base.dotsTotal) ∧ { base.host with sinkReady := true }.sinkReady = true ∧
        base.host.sinkReady = false) ∧
      (1 ≤ (atDot Ppu.zero 0 1).ppu.dot ∧ (atDot Ppu.zero 0 1).ppu.dot ≤ 256 ∧ (atDot Ppu.zero 0 1).ppu.scanline ≤ 239) ∧
      (1 ≤ (atDot Ppu.zero 239 256).ppu.dot ∧ (atDot Ppu.zero 239 256).ppu.dot ≤ 256 ∧ (atDot Ppu.zero 239 256).ppu.scanline ≤ 239) ∧
      ((atDot Ppu.zero 240 0).ppu.scanline = 240 ∧ (atDot Ppu.zero 240 0).ppu.dot = 0) ∧
      (¬(1 ≤ (atDot Ppu.zero 0 257).ppu.dot ∧ (atDot Ppu.zero 0 257).ppu.dot ≤ 256 ∧ (atDot Ppu.zero 0 257).ppu.scanline ≤ 239) ∧
        ¬((atDot Ppu.zero 0 257).ppu.scanline = 240 ∧ (atDot Ppu.zero 0 257).ppu.dot = 0)) := by decide

/-- The composed index: a transparent slot before an opaque one behind an opaque background, before a transparent one, and no slot. -/
theorem witness_EachVisibleDotEmitsOnePixel_index :
    let clear : Slot := ⟨0x7F, 0x7F, 0x00, 0x00, true⟩
    let waits : Slot := ⟨0xFF, 0xFF, 0x00, 0x05, false⟩
    let behind : Slot := ⟨0x80, 0x00, 0x23, 0x00, true⟩
    let q := { Ppu.zero with mask := 0x18, bgLo := 0x8000, spr := [clear, waits] ++ behind :: [⟨0x80, 0x80, 0, 0, true⟩] }
    (¬opaqueSlot clear ∧ ¬opaqueSlot waits ∧ opaqueSlot behind) ∧ q.mask.getLsbD 4 = true ∧ backgroundIndex q = 1 ∧
      (compose (bgPixel q) (spritePixel q)).toNat = 1 ∧
      (compose (bgPixel { q with mask := 0x10 }) (spritePixel { q with mask := 0x10 })).toNat = 0x1D ∧
      (compose (bgPixel { q with mask := 0x08 }) (spritePixel { q with mask := 0x08 })).toNat = 1 := by
  intro clear waits behind q
  refine ⟨⟨?_, ?_, ?_⟩, ?_⟩
  · intro h; exact absurd h.2 (by decide)
  · intro h; exact absurd h.1 (by decide)
  · exact ⟨rfl, by decide⟩
  · decide +kernel

theorem witness_ReloadedTileShiftsOutLeftToRight :
    let near := { Ppu.zero with mask := 0x08, fineX := 7 }
    let far := { Ppu.zero with mask := 0x08, fineX := 0 }
    (near.mask.getLsbD 3 = true ∧ 0 < 8 ∧ 1 + near.fineX.toNat = 8 + 0) ∧
      (far.mask.getLsbD 3 = true ∧ 7 < 8 ∧ 15 + far.fineX.toNat = 8 + 7) := by decide

/-- The dots the background pipeline works at, at the ends of its windows. -/
theorem witness_ReloadedTileShiftsOutLeftToRight_dots :
    let at' (k line dot : Nat) : Bool := bgWorksAt k { Ppu.zero with mask := 0x08, scanline := line, dot := dot }
    (at' 1 0 1 && at' 3 239 251 && at' 5 261 253 && at' 7 0 255 && at' 0 0 256 && at' 1 261 321 && at' 7 0 335 && at' 0 0 336) = true ∧
      (at' 0 0 0 || at' 1 0 257 || at' 0 0 320 || at' 1 0 337 || at' 1 240 1 || at' 1 260 1) = false ∧
      bgWorks { Ppu.zero with mask := 0x10, scanline := 0, dot := 1 } = false := by decide

/-- R911, R912 by hand for `v = $34A6` (table 1, row 5, column 6, fine row 3) with vertical mirroring: the nametable byte is at
`$24A6`, the attribute byte at `$27C9`, its bits 3..2 the palette, the planes of tile `$21` in the upper half at `$1213`, `$121B`. -/
theorem test_background_fetches :
    let q := { Ppu.zero with
      mask := 0x08, ctrl := 0x10, v := 0x34A6, ntByte := 0x21, bgLo := 0xC081, ptLo := 0x7E, atBits := 1,
      ciram := [(0x4A6, 0x5A), (0x7C9, 0x0C)], chr := [(0x1213, 0x81), (0x121B, 0x42)] }
    let t (dot : Nat) : Ppu := (ppuDot (atDot q 0 dot)).ppu
    (t 1).ntByte = 0x5A ∧ (t 3).atBits = 3 ∧ (t 5).ptLo = 0x81 ∧ (t 7).ptHi = 0x42 ∧ (t 2).ntByte = 0x21 ∧
      (t 8).bgLo = 0x817E ∧ (t 8).bgAt0 = 0x00FF ∧ (t 8).bgAt1 = 0x0000 ∧ (t 2).bgLo = 0x8102 ∧ (t 257).bgLo = 0xC081 := by
  decide +kernel

theorem witness_ArmedSlotShowsEightPixelsFromItsColumn :
    let sl : Slot := ⟨0xFF, 0x00, 0, 0xFF, false⟩
    let now : Slot := ⟨0xFF, 0x00, 0, 0x00, true⟩
    (sl.active = (sl.xcnt == 0) ∧ 254 < sl.xcnt.toNat ∧ 262 = sl.xcnt.toNat + 7 ∧ sl.xcnt.toNat + 8 ≤ 263) ∧
      (now.active = (now.xcnt == 0) ∧ 0 = now.xcnt.toNat + 0 ∧ now.xcnt.toNat + 8 ≤ 8) := by decide

/-- The dots of the sprite fetch at the first and the last slot, and the two kinds of dots at which nothing is fetched. -/
theorem witness_ArmedSlotShowsEightPixelsFromItsColumn_dots :
    let q (line dot : Nat) : Ppu := { Ppu.zero with mask := 0x10, scanline := line, dot := dot }
    (spriteWorks (q 0 257) ∧ (q 0 257).dot = 257 + 8 * 0) ∧ (spriteWorks (q 261 317) ∧ (q 261 317).dot = 261 + 8 * 7) ∧
      (spriteWorks (q 239 319) ∧ (q 239 319).dot = 263 + 8 * 7) ∧ (spriteWorks (q 0 320) ∧ (q 0 320).dot = 264 + 8 * 7) ∧
      (spriteWorks (q 239 256) ∧ (q 239 256).scanline ≤ 239) ∧
      (∀ i < 8, 321 ≠ 257 + 8 * i ∧ 321 ≠ 261 + 8 * i ∧ 321 ≠ 263 + 8 * i ∧ 321 ≠ 264 + 8 * i) ∧
      (∀ i < 8, 256 ≠ 257 + 8 * i ∧ 256 ≠ 261 + 8 * i ∧ 256 ≠ 263 + 8 * i ∧ 256 ≠ 264 + 8 * i) ∧ ¬spriteWorks (q 240 257) := by
  refine ⟨?_, ?_, ?_, ?_, ?_, ?_, ?_, ?_⟩ <;> first | decide | (unfold spriteWorks; decide)

/-- R932 by hand: slot 1 on line 20 with `sy = 18`, tile 3, both flips: row `7 - 2 = 5`, planes at `$1035` and `$103D`, bits
reversed; an empty slot is transparent. -/
theorem test_sprite_fetches :
    let q := { Ppu.zero with
      mask := 0x10, ctrl := 0x08, oam2Count := 2, oam2 := [(4, 18), (5, 3), (6, 0xC1), (7, 9)], chr := [(0x1035, 0x81), (0x103D, 0x01)]
      fetch := ⟨18, 3, 0xC1, 9, 0x07, 0x01⟩ }
    let t (q : Ppu) (dot : Nat) : Ppu := (ppuDot (atDot q 20 dot)).ppu
    (t { q with fetch := ⟨0, 0, 0, 0, 0, 0⟩ } 265).fetch = ⟨18, 3, 0xC1, 9, 0, 0⟩ ∧ (t q 269).fetch.lo = 0x81 ∧ (t q 271).fetch.hi = 0x01 ∧
      (t q 272).spr.getD 1 Slot.zero = ⟨0xE0, 0x80, 0, 9, false⟩ ∧ (t q 272).fetch = ⟨18, 3, 0xC1, 9, 0xE0, 0x80⟩ ∧
      (t { q with oam2Count := 1 } 269).fetch.lo = 0x00 := by decide +kernel

theorem witness_EvaluationKeepsTheFirstEightInRange :
    Memory.wf [(0, 0x20), (1, 0x05), (0xFC, 0x20)] = true := by decide

/-- The dots of clearing, of sprites 0 and 63 and of the latch, at the ends of their lines, and dots beside them. -/
theorem witness_EvaluationKeepsTheFirstEightInRange_dots :
    let q := { Ppu.zero with mask := 0x10, oam := [(0, 0x05), (0xFC, 0x05)], s0Next := true, oam2Count := 1 }
    let t (line dot : Nat) : Ppu := (ppuDot (atDot q line dot)).ppu
    (t 261 1).oam2Count = 0 ∧ (t 261 1).oam2.read 31 = 0xFF ∧ (t 5 65).oam2Count = 2 ∧ (t 12 254).oam2Count = 2 ∧
      (t 5 65).oam2.read 4 = 0x05 ∧ (t 13 254).oam2Count = 1 ∧ (t 261 65).oam2Count = 1 ∧ (t 5 66).oam2Count = 1 ∧
      (t 5 257).oam2Count = 1 ∧ (t 5 257).s0Cur = true ∧ (t 261 257).s0Cur = true ∧ (t 240 257).s0Cur = false ∧
      (t 5 258).s0Cur = false := by decide +kernel

theorem witness_MachineStepRunsThreeDotsOrNone :
    ((takeInputs base).host.run = true ∧ base.cpu.fault = none ∧ { base.cpu with budget := 1 }.budget ≠ 0) ∧
      (takeInputs { base with host := { base.host with inputs := [⟨false, true, true, true⟩] } }).host.run = false ∧
      (let h := { base.host with run := false }
       h.run = false ∧ h.inputs = [] ∧ h.calls = []) ∧
      { base.cpu with fault := some ⟨0x02, 0x8000⟩ }.fault = some ⟨0x02, 0x8000⟩ := by decide +kernel

/-- A reset request with a step that runs, its lines taken, and steps at and between boundaries. -/
theorem witness_MachineStepRunsThreeDotsOrNone_inputs :
    let i : HostInput := ⟨true, true, true, false⟩
    let s := { base with host := { base.host with inputs := [i], irqLine := false, sinkReady := true } }
    s.host.inputs = i :: [] ∧ base.host.inputs = [] ∧ (takeInputs s).host.run = true ∧ s.cpu.fault = none ∧ s.cpu.budget = 0 ∧
      (dots (takeInputs s)).cpu.resetPending = true ∧ (dots (takeInputs s)).host.irqLine = true ∧
      (dots (takeInputs s)).host.sinkReady = false := by decide +kernel

end Sys2Proof.Tests
end

/-! Every step keeps the machine invariant (O7). -/

namespace Sys2Proof.Machine

/-- The boundary keeps the invariant of a machine that has not faulted, whether it serves an interrupt or runs an instruction. -/
theorem State.Inv.boundary {s t : State} (h : s.Inv) (hf : s.cpu.fault = none) (hb : s.cpu.budget = 0)
    (he : boundary s = .next t) : t.Inv := by
  unfold Machine.boundary at he
  split at he
  · cases he
    exact h.service hf _
  · exact h.fetchInstr.exec _ (by rw [fetchInstr_fault, hf]) (by rw [fetchInstr_budget, hb]) he

/-- Settles O7: the inputs, the three dots, the tick of the budget and the boundary each keep the invariant, and a step that goes on
is made of these. -/
theorem everyStepKeepsTheMachineInvariant : Obligations.EveryStepKeepsTheMachineInvariant := by
  intro s t h hstep
  have hdots : (dots (takeInputs s)).Inv := h.takeInputs.dots
  obtain ⟨-, rfl⟩ | ⟨-, -, -, rfl⟩ | ⟨-, hf, hb, u, hu, rfl⟩ := step_cases hstep
  · exact h.takeInputs
  · exact hdots.spend
  · have hinv : u.Inv := hdots.boundary (by simp [hf]) (by simp [hb]) hu
    split
    · exact hinv
    · exact hinv.spend

end Sys2Proof.Machine

/-! What the instructions that store nothing and push nothing leave alone (O41): each shared operation they are built from, then the
shapes, then all of them. -/

namespace Sys2Proof.Machine

/-- The second state differs from the first at most in the processor and in what a bus read can change: `vblank`, `w`, `read_buf` and
`v` (R1020, R1070), the controller port and the host's answers and calls (R201, R212). -/
def ReadFrame (s t : State) : Prop :=
  t = { s with
    cpu := t.cpu
    pad := t.pad
    ppu := { s.ppu with vblank := t.ppu.vblank, w := t.ppu.w, readBuf := t.ppu.readBuf, v := t.ppu.v }
    host := { s.host with buttons := t.host.buttons, polls := t.host.polls, calls := t.host.calls } }

theorem ReadFrame.refl (s : State) : ReadFrame s s := rfl

theorem ReadFrame.trans {s t u : State} (h : ReadFrame s t) (h' : ReadFrame t u) : ReadFrame s u := by
  unfold ReadFrame at h'
  rw [h] at h'
  exact h'

/-- A change of the processor alone. -/
theorem ReadFrame.mapCpu {s t : State} (h : ReadFrame s t) (f : Cpu → Cpu) : ReadFrame s (t.mapCpu f) := h.trans rfl

theorem ReadFrame.setPc {s t : State} (h : ReadFrame s t) (pc : Word) : ReadFrame s (t.setPc pc) := h.mapCpu _

theorem ReadFrame.charge {s t : State} (h : ReadFrame s t) (n : Nat) : ReadFrame s (t.charge n) := h.mapCpu _

theorem ReadFrame.cfg {s t : State} (h : ReadFrame s t) : t.cfg = s.cfg := by rw [h]
theorem ReadFrame.wram {s t : State} (h : ReadFrame s t) : t.wram = s.wram := by rw [h]
theorem ReadFrame.prg {s t : State} (h : ReadFrame s t) : t.prg = s.prg := by rw [h]

theorem ReadFrame.peek {s t : State} (h : ReadFrame s t) (a : Word) : peek a t = peek a s := peek_congr h.wram h.prg h.cfg

/-! ## The buses -/

/-- R1020, R1070: all that a read of the register window can change in the PPU. -/
theorem ppuRegRead_eq (m : Mirroring) (r : RegIndex) (q : Ppu) :
    (ppuRegRead m r q).2 =
      { q with
        vblank := (ppuRegRead m r q).2.vblank, w := (ppuRegRead m r q).2.w
        readBuf := (ppuRegRead m r q).2.readBuf, v := (ppuRegRead m r q).2.v } := by
  unfold ppuRegRead
  split
  · rfl
  · split
    · unfold dataRead
      dsimp only
      split <;> rfl
    · rfl

theorem pollButton_readFrame (n : Nat) (s : State) : ReadFrame s (pollButton n s).2 := by
  unfold pollButton
  dsimp only
  split <;> rfl

theorem padRead_readFrame (s : State) : ReadFrame s (padRead s).2 := by
  unfold padRead
  split
  · exact pollButton_readFrame 0 s
  · split
    · exact (pollButton_readFrame _ s).trans rfl
    · exact .refl s

theorem busRead_readFrame (a : Word) (s : State) : ReadFrame s (busRead a s).2 := by
  unfold busRead
  split
  · exact .refl s
  · unfold ReadFrame
    dsimp only
    rw [← ppuRegRead_eq]
  · exact padRead_readFrame s
  · rfl
  · exact .refl s

/-! ## Pulling -/

theorem pull_readFrame (s : State) : ReadFrame s (pull s).2 := by rw [pull_eq]; rfl

theorem pull16_readFrame (s : State) : ReadFrame s (pull16 s).2 := (pull_readFrame s).trans (pull_readFrame _)

theorem returnFromInterrupt_readFrame (s : State) : ReadFrame s (returnFromInterrupt s) :=
  (((pull_readFrame s).mapCpu _).trans (pull16_readFrame _)).setPc _

/-! ## Operands and the shapes -/

theorem indirectTarget_readFrame (a : Word) (s : State) : ReadFrame s (indirectTarget a s).2 :=
  (busRead_readFrame a s).trans (busRead_readFrame _ _)

theorem resolve_readFrame (m : Mode) (s : State) : ReadFrame s (resolve m s).st := by
  cases m with
  | ind a => exact indirectTarget_readFrame a s
  | _ => rw [resolve_st _ s (by simp)]; exact .refl s

theorem load_readFrame (op : Operand) (s : State) : ReadFrame s (load op s).2 := by
  cases op with
  | mem ea => exact busRead_readFrame ea s
  | _ => exact .refl s

theorem readInstr_readFrame {opc : Byte} {m : Mode} {f : Byte → Cpu → Cpu} {s t : State} (h : readInstr opc m f s = .next t) :
    ReadFrame s t := by
  cases h
  exact (((resolve_readFrame m s).trans (load_readFrame _ _)).mapCpu _).charge _

theorem registerInstr_readFrame {opc : Byte} {f : Cpu → Cpu} {s t : State} (h : registerInstr opc f s = .next t) :
    ReadFrame s t := by
  cases h
  exact ((ReadFrame.refl s).mapCpu f).charge _

theorem branchInstr_readFrame {opc d : Byte} {taken : Bool} {s t : State} (h : branchInstr opc d taken s = .next t) :
    ReadFrame s t := by
  cases h
  cases taken
  · exact (ReadFrame.refl s).charge _
  · exact ((ReadFrame.refl s).setPc _).charge _

/-! ## Every instruction that stores nothing and pushes nothing -/

/-- What `ReadFrame` says holds of every instruction that stores nothing and pushes nothing. -/
theorem exec_readFrame (i : Instr) {s t : State}
    (hi : i.mnemonic ∉ ([.sta, .stx, .sty, .inc, .dec, .asl, .lsr, .rol, .ror, .isc, .pha, .php, .jsr, .brk] : List Mnemonic))
    (h : exec i s = .next t) : ReadFrame s t := by
  generalize hm : i.mnemonic = m at hi
  cases m with
  | sta | stx | sty | inc | dec | asl | lsr | rol | ror | isc | pha | php | jsr | brk => exact absurd (by decide) hi
  | lda => exact readInstr_readFrame (exec_lda i s hm ▸ h)
  | ldx => exact readInstr_readFrame (exec_ldx i s hm ▸ h)
  | ldy => exact readInstr_readFrame (exec_ldy i s hm ▸ h)
  | and => exact readInstr_readFrame (exec_and i s hm ▸ h)
  | eor => exact readInstr_readFrame (exec_eor i s hm ▸ h)
  | ora => exact readInstr_readFrame (exec_ora i s hm ▸ h)
  | bit => exact readInstr_readFrame (exec_bit i s hm ▸ h)
  | adc => exact readInstr_readFrame (exec_adc i s hm ▸ h)
  | sbc => exact readInstr_readFrame (exec_sbc i s hm ▸ h)
  | cmp => exact readInstr_readFrame (exec_cmp i s hm ▸ h)
  | cpx => exact readInstr_readFrame (exec_cpx i s hm ▸ h)
  | cpy => exact readInstr_readFrame (exec_cpy i s hm ▸ h)
  | tax | tay | txa | tya | tsx | txs | inx | dex | iny | dey | clc | sec | cli | sei | clv | cld | sed | nop =>
    cases i <;> cases hm
    exact registerInstr_readFrame h
  | bpl | bmi | bvc | bvs | bcc | bcs | bne | beq =>
    cases i <;> cases hm
    exact branchInstr_readFrame h
  | pla | plp =>
    cases i <;> cases hm
    cases h
    exact ((pull_readFrame s).mapCpu _).charge _
  | rts =>
    obtain rfl := Instr.eq_rts i hm
    cases h
    exact ((pull16_readFrame s).setPc _).charge _
  | rti =>
    obtain rfl := Instr.eq_rti i hm
    cases h
    exact (returnFromInterrupt_readFrame s).charge _
  | jmp =>
    cases i <;> cases hm <;> cases h
    · exact ((ReadFrame.refl s).setPc _).charge _
    · exact ((indirectTarget_readFrame _ s).setPc _).charge _
  | decodeFailure =>
    rw [exec_decodeFailure i s hm] at h
    cases h
    rfl

/-- R121: no instruction touches the reset request. -/
theorem exec_resetPending (i : Instr) {s t : State} (h : exec i s = .next t) : t.cpu.resetPending = s.cpu.resetPending := by
  by_cases hm : i.mnemonic = .decodeFailure
  · rw [exec_decodeFailure i s hm] at h
    cases h
    rfl
  · exact (exec_frame i hm h).resetPending

/-- Settles O41, from the frame of the shared operations such an instruction is built from. -/
theorem nonStoringFormsKeepMemory : Obligations.NonStoringFormsKeepMemory := by
  intro i s t hi h
  have hframe : ReadFrame s t := exec_readFrame i hi h
  exact ⟨hframe.peek, exec_resetPending i h, hframe⟩

end Sys2Proof.Machine

/-! The flag instructions and NOP (O38), and the cost of an instruction with the table's costs. -/

namespace Sys2Proof.Machine

open Sys2Proof.Claims Sys2Proof.Laws.Cost

/-- With the table's costs an instruction that cannot take the page penalty costs what its description says. -/
theorem cyclesOf_of_described {cfg : Config} {i : Instr} {n : Nat} (hcfg : cfg.cycleOverrides = [])
    (hm : i.mnemonic ≠ .decodeFailure) (hd : described i = ⟨n, false⟩) (pen : Bool) : cyclesOf cfg i.opcode pen = n := by
  have hcost : costOf cfg i.opcode = ⟨n, false⟩ := by
    unfold costOf
    rw [hcfg, List.lookup_nil, Option.getD_none, (every i hm).1, hd]
  simp [cyclesOf, hcost]

/-- A register instruction of two cycles works on the registers its effect gives. -/
theorem works_of_registerInstr {i : Instr} {s : State} {f : Cpu → Cpu} {regs : Cpu} {after : Byte → Prop}
    (he : exec i s = registerInstr i.opcode f s) (hd : described i = ⟨2, false⟩)
    (hf : ∀ n, { f s.cpu with budget := n } = withStatus regs (f s.cpu).p n) (ha : after (f s.cpu).p) : works i s regs after := by
  have hm : i.mnemonic ≠ .decodeFailure := fun h => by simp [described, h] at hd
  refine ⟨(f s.cpu).p, cyclesOf s.cfg i.opcode false, ?_, ha, fun hcfg => cyclesOf_of_described hcfg hm hd false⟩
  rw [he, ← hf]
  rfl

/-- R800: writing a flag sets that flag and keeps the others. -/
theorem setFlag_writes (f : Flag) (on : Bool) (p : Byte) :
    getFlag f (setFlag f on p) = on ∧ keepsFlagsBut [f] p (setFlag f on p) :=
  ⟨by simp, fun g hg => by simp [List.ne_of_not_mem_cons hg]⟩

/-- R800: an instruction whose effect is to write a flag. -/
theorem works_of_writeFlag {i : Instr} {s : State} {f : Flag} {on : Bool}
    (he : exec i s = registerInstr i.opcode (writeFlag f on) s) (hd : described i = ⟨2, false⟩) :
    works i s s.cpu fun p => getFlag f p = on ∧ keepsFlagsBut [f] s.cpu.p p :=
  works_of_registerInstr he hd (fun _ => rfl) (setFlag_writes f on s.cpu.p)

/-- Settles O38: each of the eight is a register instruction of two cycles, seven of them with a flag written as their effect. -/
theorem flagInstructionsWriteOneFlag : Obligations.FlagInstructionsWriteOneFlag := by
  intro s
  refine ⟨works_of_writeFlag rfl rfl, works_of_writeFlag rfl rfl, works_of_writeFlag rfl rfl, works_of_writeFlag rfl rfl,
    works_of_writeFlag rfl rfl, works_of_writeFlag rfl rfl, works_of_writeFlag rfl rfl, ?_, fun p => ?_⟩
  · exact works_of_registerInstr rfl rfl (fun _ => rfl) rfl
  · exact ⟨rfl, rfl, rfl, rfl, rfl, rfl, rfl, rfl⟩

end Sys2Proof.Machine

/-! The buses and their memories (spec/20): program ROM (O11), the processor bus (O14, O15), the PPU bus and its mirrors (O17, O18) and
the controller port (O16). -/

namespace Sys2Proof.Machine

open Sys2Proof.Claims

/-! ## Program ROM and the parameters -/

/-- R204: no instruction writes program ROM or the parameters. -/
theorem exec_keeps_rom (i : Instr) {s t : State} (h : exec i s = .next t) : t.prg = s.prg ∧ t.cfg = s.cfg := by
  by_cases hm : i.mnemonic = .decodeFailure
  · rw [exec_decodeFailure i s hm] at h
    cases h
    exact ⟨rfl, rfl⟩
  · have hframe := exec_frame i hm h
    exact ⟨hframe.prg, hframe.cfg⟩

/-- R204: nor does a boundary, whether it serves an interrupt or runs an instruction. -/
theorem boundary_keeps_rom {s t : State} (h : boundary s = .next t) : t.prg = s.prg ∧ t.cfg = s.cfg := by
  unfold boundary at h
  split at h
  · cases h
    rw [service_eq]
    exact ⟨rfl, rfl⟩
  · obtain ⟨hprg, hcfg⟩ := exec_keeps_rom _ h
    exact ⟨hprg.trans (fetchInstr_prg s), hcfg.trans (fetchInstr_cfg s)⟩

/-- Settles O11: the inputs, the dots and the budget leave the ROM and the parameters alone, and so does what runs at a boundary. -/
theorem noStepWritesProgramRom : Obligations.NoStepWritesProgramRom := by
  intro s t h
  obtain ⟨-, rfl⟩ | ⟨-, -, -, rfl⟩ | ⟨-, -, -, u, hu, rfl⟩ := step_cases h
  · exact ⟨takeInputs_prg s, takeInputs_cfg s⟩
  · simp
  · have hrom := boundary_keeps_rom hu
    rw [dots_prg, dots_cfg, takeInputs_prg, takeInputs_cfg] at hrom
    split <;> exact hrom

/-! ## The processor bus -/

theorem busWrite_of_wram {a : Word} (v : Byte) (s : State) (h : a.toNat < 0x2000) :
    busWrite a v s = { s with wram := s.wram.write (a.toNat % 0x800) v } := by
  unfold busWrite
  rw [deviceOf_wram h, wramIndex_eq_mod]

theorem busWrite_of_rom {a : Word} (v : Byte) (s : State) (h : 0x8000 ≤ a.toNat) : busWrite a v s = s := by
  unfold busWrite
  rw [deviceOf_rom h]

theorem busWrite_of_ppu {a : Word} (v : Byte) (s : State) (h : 0x2000 ≤ a.toNat) (h' : a.toNat < 0x4000) :
    busWrite a v s = issueRegWrite (regIndex a) v s := by
  unfold busWrite
  rw [deviceOf_ppu h h']

theorem busRead_of_ppu {a : Word} (s : State) (h : 0x2000 ≤ a.toNat) (h' : a.toNat < 0x4000) :
    busRead a s = ((ppuRegRead s.cfg.mirroring (regIndex a) s.ppu).1,
      { s with ppu := (ppuRegRead s.cfg.mirroring (regIndex a) s.ppu).2 }) := by
  unfold busRead
  rw [deviceOf_ppu h h']

theorem busRead_of_pad {s : State} (h : s.cfg.controller = .standard) : busRead 0x4016 s = padRead s := by
  unfold busRead
  rw [deviceOf_pad h]

theorem busWrite_of_pad (v : Byte) {s : State} (h : s.cfg.controller = .standard) : busWrite 0x4016 v s = padWrite v s := by
  unfold busWrite
  rw [deviceOf_pad h]

/-- What `peek` looks at in work RAM. -/
theorem peek_of_wram {a : Word} (s : State) (h : a.toNat < 0x2000) : peek a s = s.wram.read (a.toNat % 0x800) := by
  unfold peek
  rw [deviceOf_wram h, wramIndex_eq_mod]

/-- R204: what `peek` looks at in program ROM, by the number of banks. -/
theorem peek_of_rom {a : Word} (s : State) (h : 0x8000 ≤ a.toNat) :
    peek a s = s.prg.read (a.toNat % prgSize s.cfg.prgBanks) := by
  unfold peek
  rw [deviceOf_rom h]
  dsimp only
  cases s.cfg.prgBanks
  · rw [prgIndex_one]; rfl
  · rw [prgIndex_two]; rfl

/-- R202: a bus write changes no byte that `peek` sees but those of its own work RAM cell. -/
theorem peek_busWrite_other {a b : Word} (v : Byte) {s : State} (hwf : s.wram.wf = true)
    (h : ¬ (deviceOf s.cfg a = .wram ∧ sameCell s.cfg a b)) : peek b (busWrite a v s) = peek b s := by
  by_cases ha : deviceOf s.cfg a = .wram
  · unfold peek
    rw [busWrite_cfg, busWrite_wram, if_pos ha, busWrite_prg]
    split
    · next hb =>
      have hne : wramIndex b ≠ wramIndex a := fun he => h ⟨ha, by simp [sameCell, ha, hb, he]⟩
      rw [Memory.read_write_other _ hwf v hne]
    all_goals rfl
  · exact peek_congr (by rw [busWrite_wram, if_neg ha]) (busWrite_prg ..) (busWrite_cfg ..)

/-- Settles O14: one rule for each device of the bus dispatch, and the frame of a write over what `peek` sees. -/
theorem busWritesReachTheirByteOnly : Obligations.BusWritesReachTheirByteOnly := by
  intro s a b v hwf
  refine ⟨busWrite_of_wram v s, fun ha hb hab => ?_, peek_busWrite_other v hwf, busWrite_of_rom v s, fun h h' hp => ?_⟩
  · rw [busWrite_of_wram v s ha, busRead_of_wram _ hb, wramIndex_eq_mod, hab, Memory.read_write_same _ hwf]
  · unfold busWrite busRead
    rw [deviceOf_unmapped h h' hp]
    exact ⟨rfl, rfl⟩

/-- R1002: the registers other than 2 and 7 read 0 and change nothing. -/
theorem ppuRegRead_of_other (m : Mirroring) {r : RegIndex} (q : Ppu) (h2 : r ≠ 2) (h7 : r ≠ 7) : ppuRegRead m r q = (0, q) := by
  unfold ppuRegRead
  rw [if_neg h2, if_neg h7]

/-- R203: the register of a window address is the address modulo 8. -/
theorem regIndex_eq_ofNat_mod (a : Word) : regIndex a = BitVec.ofNat 3 (a.toNat % 8) := by
  apply BitVec.eq_of_toNat_eq
  simp [regIndex]

theorem regIndex_ne {a : Word} {r : RegIndex} (h : a.toNat % 8 ≠ r.toNat) : regIndex a ≠ r := by
  rintro rfl
  exact h (by simp [regIndex])

/-- Settles O15: each device's read rule, and that the window's accesses use the register index alone. -/
theorem otherReadsHaveNoSideEffect : Obligations.OtherReadsHaveNoSideEffect := by
  intro s a
  refine ⟨fun h => busRead_peek s (h.imp deviceOf_wram deviceOf_rom), peek_of_wram s, fun h => ?_, fun h h' => ?_⟩
  · rw [peek_of_rom s h]
    cases s.cfg.prgBanks <;> rfl
  · refine ⟨?_, fun h2 h7 => ?_, fun b v hb hb' hab => ?_⟩
    · rw [busRead_of_ppu s h h', regIndex_eq_ofNat_mod]
    · rw [busRead_of_ppu s h h', ppuRegRead_of_other _ _ (regIndex_ne h2) (regIndex_ne h7)]
    · rw [busRead_of_ppu s h h', busRead_of_ppu s hb hb', busWrite_of_ppu v s h h', busWrite_of_ppu v s hb hb', regIndex_congr hab]
      exact ⟨rfl, rfl⟩

/-! ## The controller port -/

theorem padRead_of_strobe {s : State} (h : s.pad.strobe = true) :
    padRead s = (byteOfBool (pollButton 0 s).1, (pollButton 0 s).2) := by
  unfold padRead
  rw [if_pos h]

theorem padRead_of_line {s : State} (h : s.pad.strobe = false) (hi : s.pad.index < 8) :
    padRead s = (byteOfBool (pollButton s.pad.index s).1,
      { (pollButton s.pad.index s).2 with pad := { s.pad with index := s.pad.index + 1 } }) := by
  unfold padRead
  rw [if_neg (by simp [h]), if_pos hi]
  simp only [pollButton_pad]

theorem padRead_of_exhausted {s : State} (h : s.pad.strobe = false) (hi : 8 ≤ s.pad.index) : padRead s = (1, s) := by
  unfold padRead
  rw [if_neg (by simp [h]), if_neg (by omega)]

/-- R212: a listed answer of the host is the button polled, and is used up. -/
theorem pollButton_of_listed (line : Nat) {s : State} {c : Bool} {rest : List Bool} (h : s.host.buttons = c :: rest) :
    (pollButton line s).1 = c ∧ (pollButton line s).2.host.buttons = rest := by
  unfold pollButton
  dsimp only [State.call_host]
  rw [h]
  exact ⟨rfl, rfl⟩

/-- Settles O16: the port's access is the pad's, whose three cases are the protocol's. -/
theorem controllerPortShiftsEightButtons : Obligations.ControllerPortShiftsEightButtons := by
  intro s b hc
  rw [busRead_of_pad hc, busWrite_of_pad b hc]
  refine ⟨rfl, fun h => ?_, fun h hi => ?_, padRead_of_exhausted, fun line => ⟨padRead_cpu s, padRead_ppu s, ?_⟩⟩
  · rw [padRead_of_strobe h]
    exact ⟨rfl, pollButton_pad 0 s⟩
  · rw [padRead_of_line h hi]
    exact ⟨rfl, rfl⟩
  · intro c rest h
    exact pollButton_of_listed line h

/-! ## The PPU bus -/

/-- R241: the 1 KB page of nametable RAM that a nametable's pair shares. -/
def tablePage (mir : Mirroring) (x : Nat) : Nat :=
  match mir with
  | .horizontal => x / 2
  | .vertical => x % 2

/-- R241: the nametable byte in numbers: the pair's page and the offset in it. -/
theorem ntIndex_of_table (mir : Mirroring) {a : Word} {x o : Nat} (hx : x < 4) (ho : o < 0x400)
    (ha : a.toNat = 0x2000 + 0x400 * x + o) : ntIndex mir a = 0x400 * tablePage mir x + o := by
  unfold ntIndex tablePage
  rw [if_neg (by omega), ha]
  cases mir <;> dsimp only <;> omega

/-- R241: `$3000` on folds down by `$1000`. -/
theorem ntIndex_fold (mir : Mirroring) {a b : Word} (ha : 0x3000 ≤ a.toNat) (hb : b.toNat < 0x3000)
    (hab : a.toNat = b.toNat + 0x1000) : ntIndex mir a = ntIndex mir b := by
  unfold ntIndex
  rw [if_pos ha, if_neg (by omega), hab, Nat.add_sub_cancel]

theorem toNat_ofNat_word {n : Nat} (h : n < 0x10000) : (BitVec.ofNat 16 n : Word).toNat = n := by
  rw [BitVec.toNat_ofNat, Nat.mod_eq_of_lt h]

/-- Settles O18: a nametable byte is its pair's page and its offset, and the fold. -/
theorem nametablesAreMirroredInPairs : Obligations.NametablesAreMirroredInPairs := by
  intro mir x y o hx hy ho
  have hix := ntIndex_of_table mir hx ho (toNat_ofNat_word (by omega))
  have hiy := ntIndex_of_table mir hy ho (toNat_ofNat_word (by omega))
  refine ⟨?_, fun h => ntIndex_fold mir ?_ ?_ ?_, ?_⟩
  · rw [hix, hiy]
    cases mir <;> dsimp only [tablePage] <;> omega
  · rw [toNat_ofNat_word (by omega)]
    omega
  · rw [toNat_ofNat_word (by omega)]
    omega
  · rw [toNat_ofNat_word (by omega), toNat_ofNat_word (by omega)]
    omega
  · rw [hix]
    cases mir <;> rfl

/-- R242: the palette's aliases in numbers: an entry divisible by 4 has its alias 16 above. -/
theorem palIndex_eq_mod (a : Word) : palIndex a = if a.toNat % 4 = 0 then a.toNat % 16 else a.toNat % 32 := by
  rw [palIndex_eq]
  simp only [List.mem_cons, List.not_mem_nil, or_false]
  split <;> split <;> omega

@[simp] theorem palIndex_ppuAddr (a : Word) : palIndex (ppuAddr a) = palIndex a := by
  rw [palIndex_eq_mod, palIndex_eq_mod, ppuAddr_toNat]
  split <;> split <;> omega

/-- R240: a reduced address as the number it is. -/
theorem ofNat_mod_eq_ppuAddr (a : Word) : BitVec.ofNat 16 (a.toNat % 0x4000) = ppuAddr a := by
  apply BitVec.eq_of_toNat_eq
  rw [ppuAddr_toNat, BitVec.toNat_ofNat]
  omega

/-- The byte in a cell of the PPU's three memories, cells numbered as `ppuCell` numbers them. -/
def ppuCellRead (c : Nat) (q : Ppu) : Byte :=
  if c < 0x2000 then q.chr.read c else if c < 0x3F00 then q.ciram.read (c - 0x2000) else q.pal.read (c - 0x3F00)

/-- A cell of the PPU's three memories written. -/
def ppuCellWrite (c : Nat) (v : Byte) (q : Ppu) : Ppu :=
  if c < 0x2000 then { q with chr := q.chr.write c v }
  else if c < 0x3F00 then { q with ciram := q.ciram.write (c - 0x2000) v }
  else { q with pal := q.pal.write (c - 0x3F00) v }

theorem ppuCell_of_chr (mir : Mirroring) {a : Word} (h : a.toNat % 0x4000 < 0x2000) : ppuCell mir a = a.toNat % 0x4000 := by
  simp only [ppuCell, if_pos h]

theorem ppuCell_of_nametable (mir : Mirroring) {a : Word} (h : 0x2000 ≤ a.toNat % 0x4000) (h' : a.toNat % 0x4000 < 0x3F00) :
    ppuCell mir a = 0x2000 + ntIndex mir (ppuAddr a) := by
  simp only [ppuCell, ofNat_mod_eq_ppuAddr]
  rw [if_neg (by omega), if_pos h']

theorem ppuCell_of_palette (mir : Mirroring) {a : Word} (h : 0x3F00 ≤ a.toNat % 0x4000) :
    ppuCell mir a = 0x3F00 + palIndex a := by
  simp only [ppuCell, ofNat_mod_eq_ppuAddr, palIndex_ppuAddr]
  rw [if_neg (by omega), if_neg (by omega)]

theorem ppuRead_of_chr (mir : Mirroring) {a : Word} (q : Ppu) (h : a.toNat % 0x4000 < 0x2000) :
    ppuRead mir a q = q.chr.read (a.toNat % 0x4000) := by
  simp only [ppuRead, word_le_iff, ppuAddr_toNat, BitVec.reduceToNat]
  rw [if_pos (by omega)]

theorem ppuRead_of_nametable (mir : Mirroring) {a : Word} (q : Ppu) (h : 0x2000 ≤ a.toNat % 0x4000)
    (h' : a.toNat % 0x4000 < 0x3F00) : ppuRead mir a q = q.ciram.read (ntIndex mir (ppuAddr a)) := by
  simp only [ppuRead, word_le_iff, ppuAddr_toNat, BitVec.reduceToNat]
  rw [if_neg (by omega), if_pos (by omega)]

theorem ppuRead_of_palette (mir : Mirroring) {a : Word} (q : Ppu) (h : 0x3F00 ≤ a.toNat % 0x4000) :
    ppuRead mir a q = q.pal.read (palIndex a) := by
  simp only [ppuRead, word_le_iff, ppuAddr_toNat, BitVec.reduceToNat, palIndex_ppuAddr]
  rw [if_neg (by omega), if_neg (by omega)]

theorem ppuWrite_of_chr (mir : Mirroring) {a : Word} (v : Byte) (q : Ppu) (h : a.toNat % 0x4000 < 0x2000) :
    ppuWrite mir a v q = { q with chr := q.chr.write (a.toNat % 0x4000) v } := by
  simp only [ppuWrite, word_le_iff, ppuAddr_toNat, BitVec.reduceToNat]
  rw [if_pos (by omega)]

theorem ppuWrite_of_nametable (mir : Mirroring) {a : Word} (v : Byte) (q : Ppu) (h : 0x2000 ≤ a.toNat % 0x4000)
    (h' : a.toNat % 0x4000 < 0x3F00) : ppuWrite mir a v q = { q with ciram := q.ciram.write (ntIndex mir (ppuAddr a)) v } := by
  simp only [ppuWrite, word_le_iff, ppuAddr_toNat, BitVec.reduceToNat]
  rw [if_neg (by omega), if_pos (by omega)]

theorem ppuWrite_of_palette (mir : Mirroring) {a : Word} (v : Byte) (q : Ppu) (h : 0x3F00 ≤ a.toNat % 0x4000) :
    ppuWrite mir a v q = { q with pal := q.pal.write (palIndex a) v } := by
  simp only [ppuWrite, word_le_iff, ppuAddr_toNat, BitVec.reduceToNat, palIndex_ppuAddr]
  rw [if_neg (by omega), if_neg (by omega)]

/-- R240: the three regions of the PPU bus. -/
theorem ppuRegion_cases (a : Word) :
    a.toNat % 0x4000 < 0x2000 ∨ (0x2000 ≤ a.toNat % 0x4000 ∧ a.toNat % 0x4000 < 0x3F00) ∨ 0x3F00 ≤ a.toNat % 0x4000 := by
  omega

/-- R240: a read of the PPU bus is a read of the address's cell. -/
theorem ppuRead_eq_ppuCellRead (mir : Mirroring) (a : Word) (q : Ppu) : ppuRead mir a q = ppuCellRead (ppuCell mir a) q := by
  unfold ppuCellRead
  obtain h | ⟨h, h'⟩ | h := ppuRegion_cases a
  · rw [ppuRead_of_chr mir q h, ppuCell_of_chr mir h, if_pos h]
  · have hlt : ntIndex mir (ppuAddr a) < 0x800 := ntIndex_lt ..
    rw [ppuRead_of_nametable mir q h h', ppuCell_of_nametable mir h h', if_neg (by omega), if_pos (by omega), Nat.add_sub_cancel_left]
  · rw [ppuRead_of_palette mir q h, ppuCell_of_palette mir h, if_neg (by omega), if_neg (by omega), Nat.add_sub_cancel_left]

/-- R240: a write of the PPU bus is a write of the address's cell. -/
theorem ppuWrite_eq_ppuCellWrite (mir : Mirroring) (a : Word) (v : Byte) (q : Ppu) :
    ppuWrite mir a v q = ppuCellWrite (ppuCell mir a) v q := by
  unfold ppuCellWrite
  obtain h | ⟨h, h'⟩ | h := ppuRegion_cases a
  · rw [ppuWrite_of_chr mir v q h, ppuCell_of_chr mir h, if_pos h]
  · have hlt : ntIndex mir (ppuAddr a) < 0x800 := ntIndex_lt ..
    rw [ppuWrite_of_nametable mir v q h h', ppuCell_of_nametable mir h h', if_neg (by omega), if_pos (by omega), Nat.add_sub_cancel_left]
  · rw [ppuWrite_of_palette mir v q h, ppuCell_of_palette mir h, if_neg (by omega), if_neg (by omega), Nat.add_sub_cancel_left]

theorem ppuCellRead_ppuCellWrite_same (c : Nat) (v : Byte) {q : Ppu} (hc : q.chr.wf = true) (hn : q.ciram.wf = true)
    (hp : q.pal.wf = true) : ppuCellRead c (ppuCellWrite c v q) = v := by
  unfold ppuCellWrite ppuCellRead
  split <;> [skip; split] <;> simp [hc, hn, hp]

theorem ppuCellRead_ppuCellWrite_other {c d : Nat} (v : Byte) {q : Ppu} (hc : q.chr.wf = true) (hn : q.ciram.wf = true)
    (hp : q.pal.wf = true) (hd : d ≠ c) : ppuCellRead d (ppuCellWrite c v q) = ppuCellRead d q := by
  unfold ppuCellWrite
  split
  · dsimp only [ppuCellRead]
    rw [Memory.read_write_other _ hc v hd]
  · split <;> dsimp only [ppuCellRead] <;> split
    · rfl
    · rw [Memory.read_write_other _ hn v (by omega)]
    · rfl
    · split
      · rfl
      · rw [Memory.read_write_other _ hp v (by omega)]

/-- R240: a write of the PPU bus changes the three memories only. -/
theorem ppuWrite_memories_only (mir : Mirroring) (a : Word) (v : Byte) (q : Ppu) :
    ppuWrite mir a v q =
      { q with chr := (ppuWrite mir a v q).chr, ciram := (ppuWrite mir a v q).ciram, pal := (ppuWrite mir a v q).pal } := by
  rw [ppuWrite_eq_ppuCellWrite]
  unfold ppuCellWrite
  split <;> [skip; split] <;> rfl

/-- Settles O17: the rules of the three regions, and that reads and writes of the bus are reads and writes of cells. -/
theorem ppuBusReadsBackWhatWasWritten : Obligations.PpuBusReadsBackWhatWasWritten := by
  intro mir q a b v
  dsimp only
  rw [ofNat_mod_eq_ppuAddr]
  refine ⟨ppuRead_of_chr mir q, ppuRead_of_nametable mir q, ppuRead_of_palette mir q, ppuWrite_memories_only mir a v q,
    palIndex_eq_mod a, fun hc hn hp => ?_⟩
  rw [ppuWrite_eq_ppuCellWrite, ppuRead_eq_ppuCellRead, ppuRead_eq_ppuCellRead]
  split
  · next hcell => rw [hcell, ppuCellRead_ppuCellWrite_same _ v hc hn hp]
  · next hcell => rw [ppuCellRead_ppuCellWrite_other v hc hn hp hcell]

end Sys2Proof.Machine

/-! Decoding and encoding undo each other (O1, O2, O3), and the cells of the opcode map (O4). -/

namespace Sys2Proof

open Sys2Proof.Claims

/-! ## Operand bytes at the head of a list -/

/-- The two bytes the decoder looks at, 0 where the list ends too soon (R300). -/
def operandPair (bs : List Byte) : List Byte := [bs.getD 0 0, bs.getD 1 0]

theorem operandPair_prefix (bs : List Byte) : operandPair bs <+: bs ++ [0, 0] := by
  match bs with
  | [] => exact List.prefix_rfl
  | [b] => exact ⟨[0], rfl⟩
  | b :: c :: bs => exact ⟨bs ++ [0, 0], rfl⟩

/-- Bytes that lie within the list and within the decoder's two are at the head of both or of neither. -/
theorem prefix_operandPair_iff {p bs : List Byte} (h2 : p.length ≤ 2) (hbs : p.length ≤ bs.length) :
    p <+: operandPair bs ↔ p <+: bs :=
  ⟨fun h => List.prefix_of_prefix_length_le (h.trans (operandPair_prefix bs)) (List.prefix_append bs [0, 0]) hbs,
    fun h => List.prefix_of_prefix_length_le (h.trans (List.prefix_append bs [0, 0])) (operandPair_prefix bs) h2⟩

/-! ## What decoding answers for the bytes of an instruction -/

/-- R331: an instruction that is no decode failure is the machine's unless it is an ISC taken out of `ISC_OPCODES`. -/
theorem Instr.wf_of_mnemonic {cfg : Config} {i : Instr} (h : i.mnemonic ≠ .decodeFailure)
    (hisc : i.mnemonic = .isc → cfg.admitsIsc i.opcode = true) : i.wf cfg = true := by
  cases i with
  | decodeFailure => exact absurd rfl h
  | iscIzx | iscZp | iscAbs | iscIzy | iscZpx | iscAbsy | iscAbsx => exact hisc rfl
  | _ => rfl

theorem length_encode (i : Instr) : (encode i).length = i.mode.bytes.length + 1 := rfl

/-- R303: the decoder's length of a well-formed instruction's opcode is the encoding's. -/
theorem instrLength_opcode {cfg : Config} {i : Instr} (hi : i.wf cfg = true) :
    instrLength cfg i.opcode = (encode i).length := by
  simp only [instrLength, (Laws.Encoding.every i).1, rejects_opcode cfg i hi]

/-- R330: an opcode byte and bytes that begin with an instruction's operand decode to the instruction. -/
theorem decodeOp_of_prefix {cfg : Config} {i : Instr} (hi : i.wf cfg = true) {b c : Byte} (h : i.mode.bytes <+: [b, c]) :
    decodeOp cfg i.opcode b c = i := by
  unfold decodeOp
  simp only [rejects_opcode cfg i hi]
  split
  · next hm => exact (decodeFailure_of_mnemonic i hm).symm
  · next hm =>
    obtain ⟨rest, hrest⟩ := h
    have hmap := (Laws.Encoding.every i).2 hm rest
    rwa [hrest] at hmap

/-- All that decoding does to an opcode byte and the bytes after it. -/
theorem decode_cons_eq_ok_iff {cfg : Config} {opc : Byte} {bs rest : List Byte} {i : Instr} :
    decode cfg (opc :: bs) = .ok (i, rest) ↔
      instrLength cfg opc ≤ bs.length + 1 ∧ decodeOp cfg opc (bs.getD 0 0) (bs.getD 1 0) = i ∧
        bs.drop (instrLength cfg opc - 1) = rest := by
  rw [decode]
  split
  · next h => exact iff_of_false nofun (by omega)
  · next h => simp [Nat.not_lt.1 h]

/-- Settles O1: the opcode tells the length of the encoding, and its operand bytes are the first of those the opcode map reads. -/
theorem decodeOfEncodeIsTheInstruction : Obligations.DecodeOfEncodeIsTheInstruction := by
  intro cfg i rest hi
  have hprefix : i.mode.bytes <+: operandPair (i.mode.bytes ++ rest) :=
    (prefix_operandPair_iff i.mode.bytes_length_le (by simp)).2 (List.prefix_append _ _)
  rw [encode, List.cons_append, decode_cons_eq_ok_iff, instrLength_opcode hi, length_encode]
  exact ⟨by simp, decodeOp_of_prefix hi hprefix, List.drop_left⟩

/-! ## The cells of the opcode map -/

/-- R330: every cell of the map with the operand bytes `b` and `c`: opcode, instruction, mnemonic and mode. -/
def mapCells (b c : Byte) : List (Byte × Instr × Mnemonic × Mode) :=
  let byteCells (mode : Byte → Mode) (rows : List (Byte × (Byte → Instr) × Mnemonic)) :=
    rows.map fun r => (r.1, r.2.1 b, r.2.2, mode b)
  let wordCells (mode : Word → Mode) (rows : List (Byte × (Word → Instr) × Mnemonic)) :=
    rows.map fun r => (r.1, r.2.1 (wordOf b c), r.2.2, mode (wordOf b c))
  impliedRows.map (fun r => (r.1, r.2.1, r.2.2, .implied)) ++ accRows.map (fun r => (r.1, r.2.1, r.2.2, .acc)) ++
    byteCells .imm immRows ++ byteCells .zp zpRows ++ byteCells .zpx zpxRows ++ byteCells .zpy zpyRows ++
    byteCells .izx izxRows ++ byteCells .izy izyRows ++ byteCells .rel relRows ++
    wordCells .abs absRows ++ wordCells .absx absxRows ++ wordCells .absy absyRows ++ wordCells .ind indRows

/-- A property of every cell, mode by mode. -/
theorem forall_mem_mapCells {b c : Byte} {P : Byte → Instr → Mnemonic → Mode → Prop} :
    (∀ r ∈ mapCells b c, P r.1 r.2.1 r.2.2.1 r.2.2.2) ↔
      (∀ r ∈ impliedRows, P r.1 r.2.1 r.2.2 .implied) ∧ (∀ r ∈ accRows, P r.1 r.2.1 r.2.2 .acc) ∧
      (∀ r ∈ immRows, P r.1 (r.2.1 b) r.2.2 (.imm b)) ∧ (∀ r ∈ zpRows, P r.1 (r.2.1 b) r.2.2 (.zp b)) ∧
      (∀ r ∈ zpxRows, P r.1 (r.2.1 b) r.2.2 (.zpx b)) ∧ (∀ r ∈ zpyRows, P r.1 (r.2.1 b) r.2.2 (.zpy b)) ∧
      (∀ r ∈ izxRows, P r.1 (r.2.1 b) r.2.2 (.izx b)) ∧ (∀ r ∈ izyRows, P r.1 (r.2.1 b) r.2.2 (.izy b)) ∧
      (∀ r ∈ relRows, P r.1 (r.2.1 b) r.2.2 (.rel b)) ∧
      (∀ r ∈ absRows, P r.1 (r.2.1 (wordOf b c)) r.2.2 (.abs (wordOf b c))) ∧
      (∀ r ∈ absxRows, P r.1 (r.2.1 (wordOf b c)) r.2.2 (.absx (wordOf b c))) ∧
      (∀ r ∈ absyRows, P r.1 (r.2.1 (wordOf b c)) r.2.2 (.absy (wordOf b c))) ∧
      (∀ r ∈ indRows, P r.1 (r.2.1 (wordOf b c)) r.2.2 (.ind (wordOf b c))) := by
  simp only [mapCells, List.forall_mem_append, List.forall_mem_map, and_assoc]

/-- R330, R332: a cell's instruction has the cell's opcode, mnemonic and mode. -/
theorem mapCells_instr {b c : Byte} :
    ∀ r ∈ mapCells b c, r.2.1.opcode = r.1 ∧ r.2.1.mnemonic = r.2.2.1 ∧ r.2.1.mode = r.2.2.2 := by
  rw [forall_mem_mapCells (P := fun o i m mode => i.opcode = o ∧ i.mnemonic = m ∧ i.mode = mode)]
  simp only [← List.forall_iff_forall_mem]
  repeat' constructor

/-- R331: no cell is a decode failure. -/
theorem mapCells_mnemonic {b c : Byte} : ∀ r ∈ mapCells b c, r.2.2.1 ≠ .decodeFailure := by
  rw [forall_mem_mapCells (P := fun _ _ m _ => m ≠ .decodeFailure)]
  decide

/-- R300: a cell's operand bytes are the first of `b` and `c`. -/
theorem mapCells_bytes {b c : Byte} : ∀ r ∈ mapCells b c, r.2.2.2.bytes <+: [b, c] := by
  rw [forall_mem_mapCells (P := fun _ _ _ mode => mode.bytes <+: [b, c])]
  simp [Mode.bytes]

/-- R330, R331: every byte is one of the 98 or the opcode of a cell. -/
theorem opcode_mem_mapCells (b c opc : Byte) : opc ∈ illegalOpcodes ∨ opc ∈ (mapCells b c).map (·.1) := by
  simp only [mapCells, List.map_append, List.map_map, Function.comp_def]
  revert opc
  decide +kernel

/-! ## What decoding answers for any bytes -/

theorem Config.admitsIsc_iff (cfg : Config) (opc : Byte) : cfg.admitsIsc opc = true ↔ opc ∈ cfg.iscOpcodes := by
  simp [Config.admitsIsc]

/-- R331: the bytes the machine rejects. -/
theorem Config.rejects_iff (cfg : Config) (opc : Byte) :
    cfg.rejects opc = true ↔ opc ∈ illegalOpcodes ∨ (opc ∈ iscBytes ∧ opc ∉ cfg.iscOpcodes) := by
  simp [Config.rejects, ← cfg.admitsIsc_iff]

/-- R820: an ISC's opcode is one of the seven. -/
theorem opcode_mem_iscBytes {i : Instr} (h : i.mnemonic = .isc) : i.opcode ∈ iscBytes := by
  cases i with
  | iscIzx | iscZp | iscAbs | iscIzy | iscZpx | iscAbsy | iscAbsx => simp [Instr.opcode, iscBytes]
  | _ => cases h

/-- R331: an instruction with an opcode that is not rejected is the machine's. -/
theorem Instr.wf_of_not_rejects {cfg : Config} {i : Instr} (h : i.mnemonic ≠ .decodeFailure)
    (hopc : ¬ cfg.rejects i.opcode = true) : i.wf cfg = true := by
  rw [cfg.rejects_iff, ← cfg.admitsIsc_iff] at hopc
  refine wf_of_mnemonic h fun hisc => ?_
  by_contra hadmitted
  exact hopc (.inr ⟨opcode_mem_iscBytes hisc, hadmitted⟩)

/-- R330, R331: what an opcode byte and the two bytes after it decode to is an instruction of the machine, with that opcode and with
the first of those bytes as its operand. -/
theorem decodeOp_spec (cfg : Config) (opc b c : Byte) :
    (decodeOp cfg opc b c).wf cfg = true ∧ (decodeOp cfg opc b c).opcode = opc ∧ (decodeOp cfg opc b c).mode.bytes <+: [b, c] := by
  by_cases hrej : cfg.rejects opc = true
  · rw [decodeOp, if_pos hrej]
    exact ⟨hrej, rfl, List.nil_prefix⟩
  · have hlegal : opc ∉ illegalOpcodes := fun h => hrej ((cfg.rejects_iff opc).2 (.inl h))
    obtain ⟨r, hr, rfl⟩ := List.mem_map.1 ((opcode_mem_mapCells b c opc).resolve_left hlegal)
    obtain ⟨hopc, hmnemonic, hmode⟩ := mapCells_instr r hr
    rw [← hopc] at hrej ⊢
    have hwf : r.2.1.wf cfg = true := Instr.wf_of_not_rejects (hmnemonic ▸ mapCells_mnemonic r hr) hrej
    have hbytes : r.2.1.mode.bytes <+: [b, c] := hmode ▸ mapCells_bytes r hr
    rw [decodeOp_of_prefix hwf hbytes]
    exact ⟨hwf, rfl, hbytes⟩

theorem decodeOp_wf (cfg : Config) (opc b c : Byte) : (decodeOp cfg opc b c).wf cfg = true := (decodeOp_spec cfg opc b c).1

@[simp] theorem decodeOp_opcode (cfg : Config) (opc b c : Byte) : (decodeOp cfg opc b c).opcode = opc :=
  (decodeOp_spec cfg opc b c).2.1

/-- R303: the decoder's length of an opcode is the length of what it decodes to, whatever follows. -/
theorem length_encode_decodeOp (cfg : Config) (opc b c : Byte) : (encode (decodeOp cfg opc b c)).length = instrLength cfg opc := by
  rw [← instrLength_opcode (decodeOp_wf cfg opc b c), decodeOp_opcode]

/-- R303: bytes past the opcode's length do not matter. -/
theorem decodeOp_congr {cfg : Config} {opc b c b' c' : Byte} (p : List Byte) (hlength : instrLength cfg opc ≤ p.length + 1)
    (h : p <+: [b, c]) (h' : p <+: [b', c']) : decodeOp cfg opc b' c' = decodeOp cfg opc b c := by
  obtain ⟨hwf, hopc, hbytes⟩ := decodeOp_spec cfg opc b c
  rw [← length_encode_decodeOp cfg opc b c, length_encode, Nat.add_le_add_iff_right] at hlength
  have hdecode := decodeOp_of_prefix hwf ((List.prefix_of_prefix_length_le hbytes h hlength).trans h')
  rwa [hopc] at hdecode

/-- Settles O2: the instruction's operand bytes are the first of the two the decoder looks at, and so the first of the list. -/
theorem encodeOfDecodeIsTheBytes : Obligations.EncodeOfDecodeIsTheBytes := by
  intro cfg bytes rest i h
  match bytes with
  | [] => cases h
  | opc :: bs =>
    obtain ⟨hlength, hi, hrest⟩ := decode_cons_eq_ok_iff.1 h
    obtain ⟨hwf, hopc, hbytes⟩ := hi ▸ decodeOp_spec cfg opc (bs.getD 0 0) (bs.getD 1 0)
    rw [← hopc, instrLength_opcode hwf, length_encode] at hlength hrest
    have hprefix : i.mode.bytes <+: bs := (prefix_operandPair_iff i.mode.bytes_length_le (by omega)).1 hbytes
    rw [encode, hopc, ← hrest, List.cons_append, Nat.add_sub_cancel, ← List.prefix_append_drop hprefix]
    exact ⟨hwf, rfl⟩

/-- Settles O3, by decoding the words. -/
theorem sampleWordsDecodeAsTheManualSays : Obligations.SampleWordsDecodeAsTheManualSays := by
  unfold Obligations.SampleWordsDecodeAsTheManualSays
  decide

/-! ## The opcode map -/

/-- R330: a cell as the decoder has it: the opcode decodes to the instruction, an ISC's when it is in `ISC_OPCODES`, and the
instruction has the cell's mnemonic, mode and opcode. -/
def DecodesAsCell (cfg : Config) (b c opc : Byte) (i : Instr) (m : Mnemonic) (mode : Mode) : Prop :=
  (m ≠ .isc ∨ opc ∈ cfg.iscOpcodes → decodeOp cfg opc b c = i) ∧ i.mnemonic = m ∧ i.mode = mode ∧ i.opcode = opc

theorem mapCells_decode (cfg : Config) {b c : Byte} : ∀ r ∈ mapCells b c, DecodesAsCell cfg b c r.1 r.2.1 r.2.2.1 r.2.2.2 := by
  rintro ⟨opc, i, m, mode⟩ hr
  obtain ⟨rfl, rfl, rfl⟩ : i.opcode = opc ∧ i.mnemonic = m ∧ i.mode = mode := mapCells_instr _ hr
  refine ⟨fun hadmitted => decodeOp_of_prefix (Instr.wf_of_mnemonic (mapCells_mnemonic _ hr) fun hisc => ?_) (mapCells_bytes _ hr),
    rfl, rfl, rfl⟩
  exact (cfg.admitsIsc_iff _).2 (hadmitted.resolve_left (· hisc))

/-- R331: a byte decodes to a decode failure exactly when the machine rejects it. -/
theorem decodeOp_eq_decodeFailure_iff (cfg : Config) (opc b c : Byte) :
    decodeOp cfg opc b c = .decodeFailure opc ↔ cfg.rejects opc = true := by
  have hrej := rejects_opcode cfg _ (decodeOp_wf cfg opc b c)
  rw [decodeOp_opcode] at hrej
  rw [hrej]
  refine ⟨fun h => by rw [h]; rfl, fun h => ?_⟩
  rw [decodeFailure_of_mnemonic _ h, decodeOp_opcode]

/-- Settles O4: the cells are what the opcode map reads, and the rest of the bytes are those the machine rejects. -/
theorem unlistedOpcodesAreDecodeFailures : Obligations.UnlistedOpcodesAreDecodeFailures := by
  refine ⟨by decide +kernel, rfl, fun cfg opc b c => ⟨?_, decodeOp_opcode .., rfl, ?_⟩⟩
  · rw [decodeOp_eq_decodeFailure_iff, cfg.rejects_iff]
    rfl
  · rw [← wordOf_eq]
    exact (forall_mem_mapCells (P := DecodesAsCell cfg b c)).1 (mapCells_decode cfg)

end Sys2Proof

/-! The fetch (O5), and what the modes without a pointer and with one resolve to (O19, O20). -/

namespace Sys2Proof.Machine

/-! ## Fetching -/

/-- R302: the byte fetched at the PC a fetch before it has left. -/
theorem fetchByte_setPc (w : Word) (s : State) : fetchByte (s.setPc w) = ((busRead w s).1, (busRead w s).2.setPc (w + 1)) := by
  simp only [fetchByte, State.setPc_cpu, busRead_setPc]
  rfl

/-- R302, R303: the fetch by the opcode's length, each byte one bus read at the address after the last. -/
theorem fetchInstr_cases (s : State) :
    let o := busRead s.cpu.pc s
    let b := busRead (s.cpu.pc + 1) o.2
    let c := busRead (s.cpu.pc + 2) b.2
    let n := instrLength s.cfg o.1
    (n = 2 → fetchInstr s = (decodeOp s.cfg o.1 b.1 0, b.2.setPc (s.cpu.pc + 2))) ∧
      (n = 3 → fetchInstr s = (decodeOp s.cfg o.1 b.1 c.1, c.2.setPc (s.cpu.pc + 3))) ∧
      (n ≠ 2 → n ≠ 3 → fetchInstr s = (decodeOp s.cfg o.1 0 0, o.2.setPc (s.cpu.pc + 1))) := by
  have hfirst : fetchByte s = ((busRead s.cpu.pc s).1, (busRead s.cpu.pc s).2.setPc (s.cpu.pc + 1)) := rfl
  have hsecond : s.cpu.pc + 1 + 1 = s.cpu.pc + 2 := BitVec.add_assoc ..
  have hthird : s.cpu.pc + 2 + 1 = s.cpu.pc + 3 := BitVec.add_assoc ..
  simp only [fetchInstr, hfirst, fetchByte_setPc, hsecond, hthird]
  refine ⟨fun h => by simp only [h], fun h => by simp only [h], fun h2 h3 => ?_⟩
  split
  · next h => exact absurd h h2
  · next h => exact absurd h h3
  · rfl

theorem busRead_of_placeable {s : State} {a : Word} (h : placeable s.cfg a = true) : busRead a s = (peek a s, s) :=
  busRead_peek s (by simpa [placeable] using h)

/-- R302: where the instruction's bytes lie in memory, the fetch reads what decoding the bytes at PC answers, and moves PC past it. -/
theorem fetchInstr_of_placeable {s : State} {i : Instr}
    (hplace : ∀ k, k < (encode i).length → placeable s.cfg (s.cpu.pc + BitVec.ofNat 16 k) = true)
    (hi : decodeOp s.cfg (peek s.cpu.pc s) (peek (s.cpu.pc + 1) s) (peek (s.cpu.pc + 2) s) = i) :
    fetchInstr s = (i, s.setPc (s.cpu.pc + BitVec.ofNat 16 (encode i).length)) := by
  have hread : ∀ k < (encode i).length, busRead (s.cpu.pc + BitVec.ofNat 16 k) s = (peek (s.cpu.pc + BitVec.ofNat 16 k) s, s) :=
    fun k hk => busRead_of_placeable (hplace k hk)
  have hopc : busRead s.cpu.pc s = (peek s.cpu.pc s, s) := by simpa using hread 0 (encode_length_pos i)
  have hlength : instrLength s.cfg (peek s.cpu.pc s) = (encode i).length := by rw [← hi, length_encode_decodeOp]
  have hcases := fetchInstr_cases s
  simp only [hopc, hlength] at hcases
  obtain ⟨htwo, hthree, hone⟩ := hcases
  obtain hn | hn | hn : (encode i).length = 1 ∨ (encode i).length = 2 ∨ (encode i).length = 3 := by
    have hmax : (encode i).length ≤ 3 := encode_length_le i
    have hpos := encode_length_pos i
    omega
  · rw [hone (by omega) (by omega), hn, decodeOp_congr [] (by simp [hlength, hn]) List.nil_prefix List.nil_prefix, hi]
    rfl
  · have hsecond : busRead (s.cpu.pc + 1) s = (peek (s.cpu.pc + 1) s, s) := hread 1 (by omega)
    rw [htwo hn, hn, hsecond]
    rw [decodeOp_congr [peek (s.cpu.pc + 1) s] (by simp [hlength, hn]) ⟨[_], rfl⟩ ⟨[_], rfl⟩, hi]
    rfl
  · have hsecond : busRead (s.cpu.pc + 1) s = (peek (s.cpu.pc + 1) s, s) := hread 1 (by omega)
    have hthird : busRead (s.cpu.pc + 2) s = (peek (s.cpu.pc + 2) s, s) := hread 2 (by omega)
    rw [hthree hn, hn, hsecond]
    dsimp only
    rw [hthird, hi]
    rfl

/-- Settles O5: the cases of the fetch by the length of what the opcode decodes to, and what they come to where bytes lie in memory. -/
theorem fetchReadsTheInstructionAtPc : Obligations.FetchReadsTheInstructionAtPc := by
  intro s
  dsimp only
  rw [length_encode_decodeOp]
  obtain ⟨htwo, hthree, hone⟩ := fetchInstr_cases s
  refine ⟨htwo, hthree, hone, fun i rest hplace hdecode => ?_⟩
  obtain ⟨-, hi, -⟩ := decode_cons_eq_ok_iff.1 hdecode
  exact fetchInstr_of_placeable hplace hi

/-! ## The addressing modes in numbers -/

/-- R320: an index crosses a page when it carries out of the address's low byte. -/
theorem pageCrossed_absIndexed (w : Word) (i : Byte) :
    pageCrossed w (absIndexed w i) = decide (255 < w.toNat % 256 + i.toNat) := by
  rw [pageCrossed_eq, absIndexed_eq, BitVec.toNat_ofNat, decide_eq_decide]
  omega

/-- R320: absolute indexed by X, in numbers. -/
theorem resolve_absx (w : Word) (s : State) :
    resolve (.absx w) s =
      ⟨.mem (BitVec.ofNat 16 (w.toNat + s.cpu.x.toNat)), decide (255 < w.toNat % 256 + s.cpu.x.toNat), s⟩ := by
  rw [resolve, pageCrossed_absIndexed, absIndexed_eq]

/-- R320: absolute indexed by Y, in numbers. -/
theorem resolve_absy (w : Word) (s : State) :
    resolve (.absy w) s =
      ⟨.mem (BitVec.ofNat 16 (w.toNat + s.cpu.y.toNat)), decide (255 < w.toNat % 256 + s.cpu.y.toNat), s⟩ := by
  rw [resolve, pageCrossed_absIndexed, absIndexed_eq]

/-- Settles O19: the indexed addresses and the page indicator in numbers; the rest the modes resolve to by definition. -/
theorem directModesResolveInNumbers : Obligations.DirectModesResolveInNumbers := by
  intro s a w
  refine ⟨rfl, rfl, ?_, ?_, ?_, rfl, resolve_absx w s, resolve_absy w s, rfl, rfl, rfl⟩
  · rw [resolve, zext16_eq]
  · rw [resolve, zeroPageIndexed_eq]
  · rw [resolve, zeroPageIndexed_eq]

/-- R317, R318: the pointer at a zero-page address, in numbers: its second byte wraps within page zero too. -/
theorem zeroPagePointer_of_toNat {p : Byte} {n : Nat} (h : p.toNat = n % 256) (s : State) :
    zeroPagePointer p s =
      (BitVec.ofNat 16 ((s.wram.read (n % 256)).toNat + 256 * (s.wram.read ((n + 1) % 256)).toNat), s) := by
  have hnext : (p + 1).toNat = (n + 1) % 256 := by
    rw [BitVec.toNat_add, h]
    exact Nat.mod_add_mod n 256 1
  rw [zeroPagePointer_eq, wordOf_eq, h, hnext]

/-- Settles O20: `izx` adds X to the zero-page address before the pointer is read, `izy` adds Y to the pointer. -/
theorem pointerModesReadPageZero : Obligations.PointerModesReadPageZero := by
  intro s a byte p base
  constructor
  · have hpointer := zeroPagePointer_of_toNat (BitVec.toNat_add a s.cpu.x) s
    simp only [resolve, hpointer]
    rfl
  · have hpointer : zeroPagePointer a s = (BitVec.ofNat 16 base, s) := zeroPagePointer_of_toNat (Nat.mod_eq_of_lt a.isLt).symm s
    have hbyte : ∀ n, byte n < 256 := fun n => (s.wram.read (n % 256)).isLt
    have hlow := hbyte a.toNat
    have hhigh := hbyte (a.toNat + 1)
    have hbase : (BitVec.ofNat 16 base : Word).toNat = base := toNat_ofNat_word (by omega)
    simp only [resolve, hpointer]
    rw [pageCrossed_absIndexed, absIndexed_eq, hbase]

end Sys2Proof.Machine

/-! The loads (O21), the stores (O22) and what a storing form leaves in memory (O40): the reading shape and the storing shape with
their cycles, and the bytes a store leaves alone. -/

namespace Sys2Proof.Machine

open Sys2Proof.Claims Sys2Proof.Laws.Cost

/-! ## Flags from a result -/

/-- R400: N and Z come from the result, the other flags stay. -/
theorem setNZ_flagsFrom (r p : Byte) : flagsFrom r [.n, .z] p (setNZ r p) := by
  refine ⟨?_, ?_, fun f hf => ?_⟩
  · simp [BitVec.msb_eq_decide]
  · simp [beq_eq_decide, ← BitVec.toNat_inj]
  · obtain ⟨hn, hz⟩ : f ≠ .n ∧ f ≠ .z := by simpa using hf
    simp [hn, hz]

/-! ## Cycles -/

/-- R340: with the table's costs an instruction costs what its description says. -/
theorem cyclesOf_eq_described {cfg : Config} {i : Instr} (hcfg : cfg.cycleOverrides = []) (hm : i.mnemonic ≠ .decodeFailure)
    (pen : Bool) : cyclesOf cfg i.opcode pen = (described i).base + if (described i).paged && pen then 1 else 0 := by
  have hcost : costOf cfg i.opcode = described i := by
    rw [costOf, hcfg, List.lookup_nil, Option.getD_none, (every i hm).1]
  rw [cyclesOf, hcost]

/-- R340: no instruction is described with less than two cycles. -/
theorem two_le_described {i : Instr} (hm : i.mnemonic ≠ .decodeFailure) : 2 ≤ (described i).base := by
  obtain ⟨hcost, htwo⟩ := every i hm
  rwa [← hcost]

/-- The mnemonics of the instructions that read their operand and write registers alone (R400, R550, R705). -/
def readingMnemonics : List Mnemonic := [.lda, .ldx, .ldy, .and, .eor, .ora, .bit, .adc, .sbc, .cmp, .cpx, .cpy]

theorem reading_described {i : Instr} (h : i.mnemonic ∈ readingMnemonics) :
    i.mnemonic ≠ .decodeFailure ∧ described i = ⟨readCycles i.mode, paged i.mode⟩ := by
  unfold described
  generalize i.mnemonic = m at h ⊢
  revert m
  simp [readingMnemonics]

/-- R320, R341: a mode other than a branch's crosses a page only where it can take the penalty. -/
theorem paged_of_pen {m : Mode} {s : State} (hrel : ∀ d, m ≠ .rel d) (hpen : (resolve m s).pen = true) : paged m = true := by
  cases m with
  | absx | absy | izy => rfl
  | rel d => exact absurd rfl (hrel d)
  | _ => cases hpen

/-- R341: the cycles of a reading instruction are its mode's, and one more when its address crossed a page. -/
theorem cyclesOf_reading {i : Instr} {s : State} (hcfg : s.cfg.cycleOverrides = []) (h : i.mnemonic ∈ readingMnemonics) :
    cyclesOf s.cfg i.opcode (resolve i.mode s).pen = readCycles i.mode + penalty i s := by
  obtain ⟨hm, hd⟩ := reading_described h
  have hrel : ∀ d, i.mode ≠ .rel d := by
    intro d hmode
    have htwo : 2 ≤ readCycles (.rel d) := by simpa only [hd, hmode] using two_le_described hm
    exact absurd htwo (Nat.not_succ_le_zero 1)
  have hpen : (paged i.mode && (resolve i.mode s).pen) = (resolve i.mode s).pen :=
    Bool.and_eq_right_iff_imp.2 (paged_of_pen hrel)
  rw [cyclesOf_eq_described hcfg hm, hd, hpen, penalty]

/-! ## Loads -/

@[simp] theorem operand_cpu (i : Instr) (s : State) : (operand i s).2.cpu = s.cpu := by simp [operand]

/-- A reading instruction goes on with its operand read and its effect on the registers. -/
theorem reads_of_readInstr {i : Instr} {s : State} {f : Byte → Cpu → Cpu} {regs : Cpu} {after : Byte → Prop}
    (hm : i.mnemonic ∈ readingMnemonics) (he : exec i s = readInstr i.opcode i.mode f s)
    (hf : ∀ n, { f (operand i s).1 s.cpu with budget := n } = withStatus regs (f (operand i s).1 s.cpu).p n)
    (ha : after (f (operand i s).1 s.cpu).p) : reads i s regs after := by
  refine ⟨_, cyclesOf s.cfg i.opcode (resolve i.mode s).pen, ?_, ha, fun hcfg => cyclesOf_reading hcfg hm⟩
  rw [he, ← hf, ← operand_cpu i s]
  rfl

/-- Settles O21: the three mnemonics are the reading shape, with a load as their effect. -/
theorem loadsWriteTheirRegisterAndNZ : Obligations.LoadsWriteTheirRegisterAndNZ := by
  intro i s b
  refine ⟨fun h => ?_, fun h => ?_, fun h => ?_⟩
  · exact reads_of_readInstr (by simp [h, readingMnemonics]) (exec_lda i s h) (fun _ => rfl) (setNZ_flagsFrom b _)
  · exact reads_of_readInstr (by simp [h, readingMnemonics]) (exec_ldx i s h) (fun _ => rfl) (setNZ_flagsFrom b _)
  · exact reads_of_readInstr (by simp [h, readingMnemonics]) (exec_ldy i s h) (fun _ => rfl) (setNZ_flagsFrom b _)

/-! ## Stores -/

/-- R404 to R406: the stores' cycles are their mode's, with no page penalty. -/
theorem store_described {i : Instr} (h : i.mnemonic = .sta ∨ i.mnemonic = .stx ∨ i.mnemonic = .sty) :
    i.mnemonic ≠ .decodeFailure ∧ described i = ⟨storeCycles i.mode, false⟩ := by
  unfold described
  obtain h | h | h := h <;> simp [h]

/-- R404 to R406: STA, STX and STY have an address in each of their modes, and resolving it changes nothing. -/
theorem store_resolve {i : Instr} (s : State) (h : i.mnemonic = .sta ∨ i.mnemonic = .stx ∨ i.mnemonic = .sty) :
    ∃ ea, (resolve i.mode s).op = .mem ea ∧ (resolve i.mode s).st = s := by
  obtain ⟨hoperand, hind⟩ := storing_mode i s (by obtain h | h | h := h <;> simp [h])
  obtain ⟨hm, hd⟩ := store_described h
  have hacc : i.mode ≠ .acc := by
    intro hmode
    have htwo : 2 ≤ storeCycles .acc := by simpa only [hd, hmode] using two_le_described hm
    exact absurd htwo (Nat.not_succ_le_zero 1)
  obtain ⟨ea, hea⟩ := hoperand.resolve_left hacc
  exact ⟨ea, hea, resolve_st i.mode s hind⟩

/-- A storing instruction makes one bus write of its register at the effective address, and costs its mode's cycles. -/
theorem exec_of_storeInstr {i : Instr} {s : State} {reg : Cpu → Byte}
    (h : i.mnemonic = .sta ∨ i.mnemonic = .stx ∨ i.mnemonic = .sty) (he : exec i s = storeInstr i.opcode i.mode reg s) :
    ∃ (ea : Word) (cost : Nat), (resolve i.mode s).op = .mem ea ∧
      exec i s = .next { busWrite ea (reg s.cpu) s with cpu := { s.cpu with budget := cost } } ∧
      (s.cfg.cycleOverrides = [] → cost = storeCycles i.mode) := by
  obtain ⟨ea, hea, hst⟩ := store_resolve s h
  obtain ⟨hm, hd⟩ := store_described h
  refine ⟨ea, cyclesOf s.cfg i.opcode (resolve i.mode s).pen, hea, ?_, fun hcfg => cyclesOf_of_described hcfg hm hd _⟩
  rw [he]
  simp only [storeInstr, hea, hst, store, State.charge, State.mapCpu, busWrite_cpu]

/-- Settles O22: the three mnemonics are the storing shape, each with its register. -/
theorem storesWriteTheirRegisterOnce : Obligations.StoresWriteTheirRegisterOnce := by
  intro i s hstore r
  obtain h | h | h := hstore
  · have hr : r = s.cpu.a := by simp [r, h]
    exact hr ▸ exec_of_storeInstr (.inl h) (exec_sta i s h)
  · have hr : r = s.cpu.x := by simp [r, h]
    exact hr ▸ exec_of_storeInstr (.inr (.inl h)) (exec_stx i s h)
  · have hr : r = s.cpu.y := by simp [r, h]
    exact hr ▸ exec_of_storeInstr (.inr (.inr h)) (exec_sty i s h)

/-! ## The bytes a storing form leaves alone -/

/-- A byte of work RAM or ROM that a store to the operand cannot reach. -/
def Spared (cfg : Config) (op : Operand) (b : Word) : Prop :=
  ∀ ea, op = .mem ea → ¬ (deviceOf cfg ea = .wram ∧ sameCell cfg ea b)

/-- R202: a store changes no byte that it does not reach. -/
theorem peek_store {op : Operand} {b : Word} {s : State} (v : Byte) (hwf : s.wram.wf = true) (h : Spared s.cfg op b) :
    peek b (store op v s) = peek b s := by
  cases op with
  | mem ea => exact peek_busWrite_other v hwf (h ea rfl)
  | _ => rfl

/-- Nor does it after bus reads. -/
theorem ReadFrame.peek_store {op : Operand} {b : Word} {s u : State} (hu : ReadFrame s u) (v : Byte) (hwf : s.wram.wf = true)
    (h : Spared s.cfg op b) : Machine.peek b (store op v u) = Machine.peek b s :=
  (Machine.peek_store v (hu.wram ▸ hwf) (hu.cfg ▸ h)).trans (hu.peek b)

theorem peek_storeInstr {opc : Byte} {m : Mode} {reg : Cpu → Byte} {s t : State} {b : Word} (hwf : s.wram.wf = true)
    (hb : Spared s.cfg (resolve m s).op b) (h : storeInstr opc m reg s = .next t) : peek b t = peek b s := by
  cases h
  exact (resolve_readFrame m s).peek_store _ hwf hb

theorem peek_modifyInstr {opc : Byte} {m : Mode} {value : Byte → Cpu → Byte} {f : Byte → Cpu → Cpu} {s t : State} {b : Word}
    (hwf : s.wram.wf = true) (hb : Spared s.cfg (resolve m s).op b) (h : modifyInstr opc m value f s = .next t) :
    peek b t = peek b s := by
  cases h
  exact ((resolve_readFrame m s).trans (load_readFrame _ _)).peek_store _ hwf hb

/-- A storing form changes no byte that a store to its operand does not reach: it is one of the two shapes that store. -/
theorem peek_exec_storing {i : Instr} {s t : State} {b : Word} (hwf : s.wram.wf = true)
    (hi : i.mnemonic ∈ ([.sta, .stx, .sty, .inc, .dec, .asl, .lsr, .rol, .ror, .isc] : List Mnemonic)) (he : exec i s = .next t)
    (hb : Spared s.cfg (resolve i.mode s).op b) : peek b t = peek b s := by
  simp only [List.mem_cons, List.not_mem_nil, or_false] at hi
  obtain h | h | h | h | h | h | h | h | h | h := hi
  · exact peek_storeInstr hwf hb (exec_sta i s h ▸ he)
  · exact peek_storeInstr hwf hb (exec_stx i s h ▸ he)
  · exact peek_storeInstr hwf hb (exec_sty i s h ▸ he)
  · exact peek_modifyInstr hwf hb (exec_inc i s h ▸ he)
  · exact peek_modifyInstr hwf hb (exec_dec i s h ▸ he)
  · exact peek_modifyInstr hwf hb (exec_asl i s h ▸ he)
  · exact peek_modifyInstr hwf hb (exec_lsr i s h ▸ he)
  · exact peek_modifyInstr hwf hb (exec_rol i s h ▸ he)
  · exact peek_modifyInstr hwf hb (exec_ror i s h ▸ he)
  · exact peek_modifyInstr hwf hb (exec_isc i s h ▸ he)

/-- Settles O40: a store to an address spares every other cell, and one to the accumulator every byte. -/
theorem storingFormsKeepEveryOtherByte : Obligations.StoringFormsKeepEveryOtherByte := by
  intro i s t hwf hi he
  refine ⟨fun ea b hea hb => ?_, fun hacc b => ?_⟩
  · have hspared : Spared s.cfg (resolve i.mode s).op b := by
      rw [hea]
      rintro _ ⟨⟩
      exact hb
    exact peek_exec_storing hwf hi he hspared
  · have hspared : Spared s.cfg (resolve i.mode s).op b := by
      rw [hacc]
      exact nofun
    exact peek_exec_storing hwf hi he hspared

end Sys2Proof.Machine

/-! The transfers (O23): register instructions whose effect is a copy, with N and Z of the copied value except in TXS. -/

namespace Sys2Proof.Machine

open Sys2Proof.Claims Sys2Proof.Laws.Cost

/-- R450, R600: a register instruction of two cycles whose effect is to change registers and set N and Z from a value. -/
theorem works_of_setNZ {i : Instr} {s : State} {f : Cpu → Cpu} {regs : Cpu} {r : Byte}
    (he : exec i s = registerInstr i.opcode f s) (hd : described i = ⟨2, false⟩)
    (hf : f s.cpu = { regs with p := setNZ r s.cpu.p }) : works i s regs (flagsFrom r [.n, .z] s.cpu.p) := by
  refine works_of_registerInstr he hd (fun _ => ?_) ?_ <;> rw [hf]
  · rfl
  · exact setNZ_flagsFrom r s.cpu.p

/-- Settles O23: five of the six set N and Z from the register they copy; the sixth, TXS, leaves P as it was. -/
theorem transfersCopyOneRegister : Obligations.TransfersCopyOneRegister := by
  intro s
  refine ⟨works_of_setNZ rfl rfl rfl, works_of_setNZ rfl rfl rfl, works_of_setNZ rfl rfl rfl, works_of_setNZ rfl rfl rfl,
    works_of_setNZ rfl rfl rfl, ?_⟩
  exact works_of_registerInstr rfl rfl (fun _ => rfl) rfl

end Sys2Proof.Machine

/-! The stack instructions (spec/42): the pushes PHA and PHP (O24), the pulls PLA and PLP (O25). -/

namespace Sys2Proof.Machine

open Sys2Proof.Claims Sys2Proof.Laws.Cost

/-- R502, R504: what an instruction that pushes one byte goes on with. -/
theorem push_charge (b : Byte) (s : State) (n : Nat) :
    (push b s).charge n =
      { s with wram := s.wram.write (stackCell s.cpu.s) b, cpu := { s.cpu with s := s.cpu.s - 1, budget := n } } := by
  rw [push_eq]
  rfl

/-- R500: `Pull` answers the byte of the cell that `S` designates once counted up. -/
theorem pull_byte (s : State) : (pull s).1 = s.wram.read (stackCell (s.cpu.s + 1)) := by
  rw [pull_eq]
  rfl

/-- R503, R505: what an instruction that pulls one byte and then works on the registers goes on with. -/
theorem pull_mapCpu_charge (f : Cpu → Cpu) (s : State) (n : Nat) :
    ((pull s).2.mapCpu f).charge n = { s with cpu := { f { s.cpu with s := s.cpu.s + 1 } with budget := n } } := by
  rw [pull_eq]
  rfl

/-- R504: the byte PHP pushes has the flags of `P`, and bits 4 and 5 set. -/
theorem getFlag_pushedByProgram_eq_or (f : Flag) (p : Byte) :
    getFlag f (pushedByProgram p) = (getFlag f p || f == .b || f == .u) := by
  rw [getFlag_pushedByProgram]
  by_cases hb : f = .b
  · simp [hb]
  · by_cases hu : f = .u
    · simp [hu]
    · simp [hb, hu, beq_eq_decide]

/-- R505: `P` as PLP takes it from a byte has the byte's six flags, bit 4 clear and bit 5 set. -/
theorem getFlag_pulledStatus_eq_and (f : Flag) (b : Byte) :
    getFlag f (pulledStatus b) = (f == .u || (f != .b && getFlag f b)) := by
  rw [getFlag_pulledStatus]
  by_cases hb : f = .b
  · simp [hb]
  · by_cases hu : f = .u
    · simp [hu]
    · simp [hb, hu, beq_eq_decide]

/-- Settles O24: both are a push and its cost, of A and of the copy of `P` a program pushes. -/
theorem pushesWriteOneStackByte : Obligations.PushesWriteOneStackByte := by
  intro s result
  refine ⟨⟨cyclesOf s.cfg 0x48 false, ?_, fun hcfg => ?_⟩,
    ⟨cyclesOf s.cfg 0x08 false, pushedByProgram s.cpu.p, ?_, fun hcfg => ?_, fun f => ?_⟩⟩
  · exact congrArg Host.Outcome.next (push_charge s.cpu.a s _)
  · exact cyclesOf_of_described (i := .pha) hcfg nofun rfl false
  · exact congrArg Host.Outcome.next (push_charge (pushedByProgram s.cpu.p) s _)
  · exact cyclesOf_of_described (i := .php) hcfg nofun rfl false
  · exact getFlag_pushedByProgram_eq_or f s.cpu.p

/-- Settles O25: both are a pull, then a write of registers from the byte pulled, and the cost. -/
theorem pullsReadOneStackByte : Obligations.PullsReadOneStackByte := by
  intro s b
  have hb : (pull s).1 = b := pull_byte s
  refine ⟨⟨setNZ b s.cpu.p, cyclesOf s.cfg 0x68 false, ?_, setNZ_flagsFrom b s.cpu.p, fun hcfg => ?_⟩,
    ⟨pulledStatus b, cyclesOf s.cfg 0x28 false, ?_, fun f => ?_, fun hcfg => ?_⟩⟩
  · rw [← hb]
    exact congrArg Host.Outcome.next (pull_mapCpu_charge _ s _)
  · exact cyclesOf_of_described (i := .pla) hcfg nofun rfl false
  · rw [← hb]
    exact congrArg Host.Outcome.next (pull_mapCpu_charge _ s _)
  · exact getFlag_pulledStatus_eq_and f b
  · exact cyclesOf_of_described (i := .plp) hcfg nofun rfl false

end Sys2Proof.Machine

/-! The logical operations (spec/43): AND, EOR and ORA, whose result in A sets N and Z (O26), and BIT, which writes flags alone (O27). -/

namespace Sys2Proof.Machine

open Sys2Proof.Claims

/-- R400, R550: an instruction that reads its operand, changes registers by it and sets N and Z from a value. -/
theorem reads_of_setNZ {i : Instr} {s : State} {f : Byte → Cpu → Cpu} {regs : Cpu} {r : Byte}
    (hm : i.mnemonic ∈ readingMnemonics) (he : exec i s = readInstr i.opcode i.mode f s)
    (hf : f (operand i s).1 s.cpu = { regs with p := setNZ r s.cpu.p }) : reads i s regs (flagsFrom r [.n, .z] s.cpu.p) := by
  refine reads_of_readInstr hm he (fun _ => ?_) ?_ <;> rw [hf]
  · rfl
  · exact setNZ_flagsFrom r s.cpu.p

/-- Settles O26: a result with those bits is that of the byte operation, which the instruction's effect writes to A. -/
theorem logicCombinesAWithTheOperand : Obligations.LogicCombinesAWithTheOperand := by
  intro i s r m h
  obtain ⟨hi, hbits⟩ | ⟨hi, hbits⟩ | ⟨hi, hbits⟩ := h
  · have hr : r = s.cpu.a &&& m := BitVec.eq_of_getLsbD_eq fun k hk => by rw [hbits k hk, BitVec.getLsbD_and]
    exact reads_of_setNZ (by simp [hi, readingMnemonics]) (exec_and i s hi) (hr ▸ rfl)
  · have hr : r = s.cpu.a ^^^ m := BitVec.eq_of_getLsbD_eq fun k hk => by rw [hbits k hk, BitVec.getLsbD_xor]
    exact reads_of_setNZ (by simp [hi, readingMnemonics]) (exec_eor i s hi) (hr ▸ rfl)
  · have hr : r = s.cpu.a ||| m := BitVec.eq_of_getLsbD_eq fun k hk => by rw [hbits k hk, BitVec.getLsbD_or]
    exact reads_of_setNZ (by simp [hi, readingMnemonics]) (exec_ora i s hi) (hr ▸ rfl)

/-- Two bytes' AND is 0 when no bit is set in both. -/
theorem and_eq_zero_iff_getLsbD (a m : Byte) : a &&& m = 0 ↔ ∀ k < 8, (a.getLsbD k && m.getLsbD k) = false := by
  simp only [BitVec.eq_of_getLsbD_eq_iff, BitVec.getLsbD_and, BitVec.getLsbD_zero, BitVec.ofNat_eq_ofNat]

/-- R554: Z after BIT says that A and the operand have no bit in common, V and N are the operand's bits 6 and 7, the other flags
stay. -/
theorem bitFlags_test (a m p : Byte) :
    (getFlag .z (bitFlags a m p) = true ↔ ∀ k < 8, (a.getLsbD k && m.getLsbD k) = false) ∧
      getFlag .v (bitFlags a m p) = m.getLsbD 6 ∧ getFlag .n (bitFlags a m p) = m.getLsbD 7 ∧
      keepsFlagsBut [.z, .v, .n] p (bitFlags a m p) := by
  refine ⟨?_, ?_, ?_, fun f hf => ?_⟩
  · rw [← and_eq_zero_iff_getLsbD]
    simp
  · simp
  · simp
  · obtain ⟨hz, hv, hn⟩ : f ≠ .z ∧ f ≠ .v ∧ f ≠ .n := by simpa using hf
    simp [hz, hv, hn]

/-- Settles O27: the reading shape again, with an effect that writes BIT's flags and no other register. -/
theorem bitTestsTheOperand : Obligations.BitTestsTheOperand := by
  intro i s hi m
  exact reads_of_readInstr (by simp [hi, readingMnemonics]) (exec_bit i s hi) (fun _ => rfl) (bitFlags_test s.cpu.a m s.cpu.p)

end Sys2Proof.Machine

/-! The increments and decrements (spec/44, O28): INC and DEC as the read-modify-write shape on memory, the four on registers as
register instructions. -/

namespace Sys2Proof.Machine

open Sys2Proof.Claims Sys2Proof.Laws.Cost

/-! ## The read-modify-write shape -/

/-- The mnemonics of the instructions that read their operand and write it back changed (R252, R600, R650, R820). -/
def modifyingMnemonics : List Mnemonic := [.inc, .dec, .asl, .lsr, .rol, .ror, .isc]

/-- R340: the cycles of a read-modify-write instruction are its mode's, with no page penalty. -/
theorem modifying_described {i : Instr} (h : i.mnemonic ∈ modifyingMnemonics) :
    i.mnemonic ≠ .decodeFailure ∧ described i = ⟨modifyCycles i.mode, false⟩ := by
  unfold described
  generalize i.mnemonic = m at h ⊢
  revert m
  simp [modifyingMnemonics]

/-- R340: with the table's costs a read-modify-write instruction costs its mode's cycles. -/
theorem cyclesOf_modifying {cfg : Config} {i : Instr} (hcfg : cfg.cycleOverrides = []) (h : i.mnemonic ∈ modifyingMnemonics)
    (pen : Bool) : cyclesOf cfg i.opcode pen = modifyCycles i.mode :=
  cyclesOf_of_described hcfg (modifying_described h).1 (modifying_described h).2 pen

/-- R252: on memory the shape makes one bus write, of the new value and after the operand is read, and then changes registers. -/
theorem modifyInstr_of_mem {i : Instr} {s : State} {ea : Word} (hea : (resolve i.mode s).op = .mem ea)
    (value : Byte → Cpu → Byte) (effect : Byte → Cpu → Cpu) :
    modifyInstr i.opcode i.mode value effect s =
      .next { busWrite ea (value (operand i s).1 s.cpu) (operand i s).2 with
        cpu := { effect (operand i s).1 s.cpu with budget := cyclesOf s.cfg i.opcode (resolve i.mode s).pen } } := by
  simp [modifyInstr, operand, hea, store, State.charge, State.mapCpu]

/-! ## Counting a byte up and down -/

/-- R600: adding 1 to a byte, in numbers. -/
theorem add_one_eq_ofNat (b : Byte) : b + 1 = BitVec.ofNat 8 (b.toNat + 1) := by
  rw [BitVec.ofNat_add, BitVec.ofNat_toNat, BitVec.setWidth_eq]
  rfl

/-- R600: subtracting 1 from a byte is adding 255 modulo 256. -/
theorem sub_one_eq_ofNat (b : Byte) : b - 1 = BitVec.ofNat 8 (b.toNat + 255) := by
  rw [BitVec.ofNat_add, BitVec.ofNat_toNat, BitVec.setWidth_eq, BitVec.sub_eq_add_neg]
  rfl

/-! ## INC and DEC -/

/-- R601, R602: each mode of INC and DEC has an address. -/
theorem incDec_address {i : Instr} (s : State) (h : i.mnemonic = .inc ∨ i.mnemonic = .dec) :
    ∃ ea, (resolve i.mode s).op = .mem ea := by
  obtain h | h := h <;> cases i <;> cases h <;> exact ⟨_, rfl⟩

/-- R600: INC and DEC write their result back at their address and set N and Z from it. -/
theorem exec_of_incDec {i : Instr} {s : State} {value : Byte → Byte} {r : Byte} (h : i.mnemonic = .inc ∨ i.mnemonic = .dec)
    (he : exec i s = modifyInstr i.opcode i.mode (fun m _ => value m) (fun m => nzOf (value m)) s)
    (hr : value (operand i s).1 = r) :
    ∃ (ea : Word) (p : Byte) (cost : Nat), (resolve i.mode s).op = .mem ea ∧
      exec i s = .next { busWrite ea r (operand i s).2 with cpu := withStatus s.cpu p cost } ∧
      flagsFrom r [.n, .z] s.cpu.p p ∧ (s.cfg.cycleOverrides = [] → cost = modifyCycles i.mode) := by
  subst hr
  obtain ⟨ea, hea⟩ := incDec_address s h
  have hm : i.mnemonic ∈ modifyingMnemonics := by obtain h | h := h <;> simp [h, modifyingMnemonics]
  exact ⟨ea, _, _, hea, he.trans (modifyInstr_of_mem hea _ _), setNZ_flagsFrom _ _, fun hcfg => cyclesOf_modifying hcfg hm _⟩

/-- Settles O28: INC and DEC by their shape, INX, DEX, INY and DEY as register instructions that set N and Z; the model's `+ 1` and
`- 1` on bytes are the statement's numbers modulo 256. -/
theorem incrementsAndDecrementsWrap : Obligations.IncrementsAndDecrementsWrap := by
  intro i s up down
  have hup (b : Byte) : b + 1 = up b := add_one_eq_ofNat b
  have hdown (b : Byte) : b - 1 = down b := sub_one_eq_ofNat b
  refine ⟨fun h => ?_, ?_, ?_, ?_, ?_⟩
  · obtain hi | hi := h
    · exact exec_of_incDec (.inl hi) (exec_inc i s hi) ((hup _).trans (if_pos hi).symm)
    · exact exec_of_incDec (.inr hi) (exec_dec i s hi) ((hdown _).trans (if_neg (by simp [hi])).symm)
  · exact hup s.cpu.x ▸ works_of_setNZ rfl rfl rfl
  · exact hdown s.cpu.x ▸ works_of_setNZ rfl rfl rfl
  · exact hup s.cpu.y ▸ works_of_setNZ rfl rfl rfl
  · exact hdown s.cpu.y ▸ works_of_setNZ rfl rfl rfl

end Sys2Proof.Machine

/-! The shifts and rotates (spec/45, O29): the read-modify-write shape on A and on memory, with the four results in numbers. -/

namespace Sys2Proof.Machine

open Sys2Proof.Claims

/-! ## The bit shifted out -/

/-- R651, R653: the bit that leaves on the left is set from 128 up. -/
theorem getLsbD_seven_eq_decide (b : Byte) : b.getLsbD 7 = decide (128 ≤ b.toNat) :=
  (BitVec.msb_eq_getLsbD_last b).symm.trans (BitVec.msb_eq_decide b)

/-- R652, R654: the bit that leaves on the right is set in an odd byte. -/
theorem getLsbD_zero_eq_decide (b : Byte) : b.getLsbD 0 = decide (b.toNat % 2 = 1) := Nat.testBit_zero b.toNat

/-! ## The results in numbers -/

/-- R651: shifted left, a byte doubles modulo 256. -/
theorem toNat_shiftLeft_one (b : Byte) : (b <<< 1).toNat = 2 * b.toNat % 256 := by
  rw [BitVec.toNat_shiftLeft, Nat.shiftLeft_eq, Nat.mul_comm]

/-- R652: shifted right, a byte halves. -/
theorem toNat_shiftRight_one (b : Byte) : (b >>> 1).toNat = b.toNat / 2 := BitVec.toNat_ushiftRight b 1

/-- R653, R654: the old carry stands in bit 0 of its byte. -/
theorem getLsbD_carryBit (c : Cpu) (k : Nat) : (carryBit c).getLsbD k = (decide (k = 0) && getFlag .c c.p) := by
  unfold carryBit
  cases getFlag .c c.p <;> simp

/-- R653: ROL's result is the operand doubled, and 1 more with the old carry: bit 0 is free for it. -/
theorem toNat_rolValue (m : Byte) (c : Cpu) :
    (rolValue m c).toNat = (2 * m.toNat + if getFlag .c c.p then 1 else 0) % 256 := by
  have hfree : m <<< 1 &&& carryBit c = 0#8 := by
    refine BitVec.eq_of_getLsbD_eq fun k _ => ?_
    obtain rfl | hk : k = 0 ∨ k ≠ 0 := eq_or_ne k 0
    · simp
    · simp [getLsbD_carryBit, hk]
  have hcarry : (carryBit c).toNat = if getFlag .c c.p then 1 else 0 := apply_ite BitVec.toNat _ _ _
  rw [rolValue, ← BitVec.add_eq_or_of_and_eq_zero _ _ hfree, BitVec.toNat_add, toNat_shiftLeft_one, hcarry, Nat.mod_add_mod]

/-- R654: ROR's result is half the operand, and 128 more with the old carry: bit 7 is free for it. -/
theorem toNat_rorValue (m : Byte) (c : Cpu) :
    (rorValue m c).toNat = m.toNat / 2 + 128 * if getFlag .c c.p then 1 else 0 := by
  have hfree : m >>> 1 &&& carryBit c <<< 7 = 0#8 := by
    refine BitVec.eq_of_getLsbD_eq fun k hk => ?_
    obtain hlow | rfl : k < 7 ∨ k = 7 := by omega
    · simp [hlow]
    · simp
  have hcarry : (carryBit c <<< 7).toNat = 128 * if getFlag .c c.p then 1 else 0 := by
    unfold carryBit
    split <;> rfl
  have hfits : m.toNat / 2 + (128 * if getFlag .c c.p then 1 else 0) < 2 ^ 8 := by
    have := m.isLt
    split <;> omega
  rw [rorValue, ← BitVec.add_eq_or_of_and_eq_zero _ _ hfree, BitVec.toNat_add, toNat_shiftRight_one, hcarry,
    Nat.mod_eq_of_lt hfits]

/-! ## The flags -/

/-- Two writes of `P` one after the other keep the flags that neither writes. -/
theorem keepsFlagsBut_append {fs gs : List Flag} {p q r : Byte} (hpq : keepsFlagsBut fs p q) (hqr : keepsFlagsBut gs q r) :
    keepsFlagsBut (fs ++ gs) p r := by
  intro f hf
  obtain ⟨hfs, hgs⟩ := not_or.1 (mt List.mem_append.2 hf)
  exact (hqr f hgs).trans (hpq f hfs)

/-- R650: C written, then N and Z from the result. -/
theorem setNZ_setFlag_c_flagsFrom (r p : Byte) (out : Bool) :
    getFlag .c (setNZ r (setFlag .c out p)) = out ∧ flagsFrom r [.c, .n, .z] p (setNZ r (setFlag .c out p)) := by
  obtain ⟨hn, hz, hkept⟩ := setNZ_flagsFrom r (setFlag .c out p)
  obtain ⟨hc, hothers⟩ := setFlag_writes .c out p
  exact ⟨(hkept .c (by decide)).trans hc, hn, hz, keepsFlagsBut_append hothers hkept⟩

/-! ## The two forms -/

/-- R252, R310: a read-modify-write instruction works on the accumulator or has an address. -/
theorem modifying_mode {i : Instr} (s : State) (h : i.mnemonic ∈ modifyingMnemonics) :
    i.mode = .acc ∨ ∃ ea, (resolve i.mode s).op = .mem ea := by
  have hstoring : modifyingMnemonics ⊆ [.sta, .stx, .sty, .inc, .dec, .asl, .lsr, .rol, .ror, .isc] := by decide
  exact (storing_mode i s (hstoring h)).1

/-- R252, R310: on the accumulator the read-modify-write shape writes the new value to A, and then changes registers. -/
theorem modifyInstr_of_acc {i : Instr} {s : State} (hacc : i.mode = .acc) (value : Byte → Cpu → Byte)
    (effect : Byte → Cpu → Cpu) :
    modifyInstr i.opcode i.mode value effect s =
      .next { s with
        cpu := { effect (operand i s).1 { s.cpu with a := value (operand i s).1 s.cpu } with
          budget := cyclesOf s.cfg i.opcode (resolve i.mode s).pen } } := by
  rw [operand, hacc]
  rfl

/-- R650: an instruction that writes a result back and sets C from a bit of its operand, on A and on memory, when its result does
not look at A. -/
theorem exec_of_shift {i : Instr} {s : State} {value : Byte → Cpu → Byte} {k : Nat} {r : Byte} {out : Bool}
    (hm : i.mnemonic ∈ modifyingMnemonics)
    (he : exec i s = modifyInstr i.opcode i.mode value (shiftFlags value k) s)
    (ha : ∀ m c a, value m { c with a := a } = value m c)
    (hr : value (operand i s).1 s.cpu = r) (hout : (operand i s).1.getLsbD k = out) :
    ∃ (p : Byte) (cost : Nat),
      ((i.mode = .acc ∧ exec i s = .next { s with cpu := withStatus { s.cpu with a := r } p cost }) ∨
        ∃ ea, (resolve i.mode s).op = .mem ea ∧
          exec i s = .next { busWrite ea r (operand i s).2 with cpu := withStatus s.cpu p cost }) ∧
      getFlag .c p = out ∧ flagsFrom r [.c, .n, .z] s.cpu.p p ∧ (s.cfg.cycleOverrides = [] → cost = modifyCycles i.mode) := by
  obtain ⟨hc, hflags⟩ := setNZ_setFlag_c_flagsFrom r s.cpu.p out
  refine ⟨_, cyclesOf s.cfg i.opcode (resolve i.mode s).pen, ?_, hc, hflags, fun hcfg => cyclesOf_modifying hcfg hm _⟩
  subst hr hout
  obtain hacc | ⟨ea, hea⟩ := modifying_mode s hm
  · refine .inl ⟨hacc, ?_⟩
    rw [he, modifyInstr_of_acc hacc]
    simp only [shiftFlags, ha, withStatus]
  · exact .inr ⟨ea, hea, he.trans (modifyInstr_of_mem hea _ _)⟩

/-- Settles O29: the four mnemonics are one shape, each with its result, which the numbers determine, and with the bit it shifts
out. -/
theorem shiftsMoveOneBitThroughCarry : Obligations.ShiftsMoveOneBitThroughCarry := by
  intro i s m carry r out h
  obtain ⟨hi, hr, hout⟩ | ⟨hi, hr, hout⟩ | ⟨hi, hr, hout⟩ | ⟨hi, hr, hout⟩ := h
  · exact exec_of_shift (by simp [hi, modifyingMnemonics]) (exec_asl i s hi) (fun _ _ _ => rfl)
      (BitVec.eq_of_toNat_eq ((toNat_shiftLeft_one m.1).trans hr.symm)) ((getLsbD_seven_eq_decide m.1).trans hout.symm)
  · exact exec_of_shift (by simp [hi, modifyingMnemonics]) (exec_lsr i s hi) (fun _ _ _ => rfl)
      (BitVec.eq_of_toNat_eq ((toNat_shiftRight_one m.1).trans hr.symm)) ((getLsbD_zero_eq_decide m.1).trans hout.symm)
  · exact exec_of_shift (by simp [hi, modifyingMnemonics]) (exec_rol i s hi) (fun _ _ _ => rfl)
      (BitVec.eq_of_toNat_eq ((toNat_rolValue m.1 s.cpu).trans hr.symm)) ((getLsbD_seven_eq_decide m.1).trans hout.symm)
  · exact exec_of_shift (by simp [hi, modifyingMnemonics]) (exec_ror i s hi) (fun _ _ _ => rfl)
      (BitVec.eq_of_toNat_eq ((toNat_rorValue m.1 s.cpu).trans hr.symm)) ((getLsbD_zero_eq_decide m.1).trans hout.symm)

end Sys2Proof.Machine

/-! Addition, subtraction and comparison (spec/46): the adder's flags in numbers, which ADC and SBC share (O30), its overflow as the
signed sum's (O31), and the comparisons (O32). -/

namespace Sys2Proof.Machine

open Sys2Proof.Claims

/-! ## The adder -/

/-- R700: the overflow, the signs read off the bytes' values. -/
theorem addWithCarry_overflow_eq_decide (a m : Byte) (c : Bool) :
    (addWithCarry a m c).overflow =
      decide ((a.toNat < 128 ↔ m.toNat < 128) ∧ ¬(a.toNat < 128 ↔ (addWithCarry a m c).r.toNat < 128)) := by
  have hsign (x : Byte) : x.msb = !decide (x.toNat < 128) := by
    rw [BitVec.msb_eq_decide, ← decide_not]
    exact decide_eq_decide.2 Nat.not_lt.symm
  simp only [addWithCarry_overflow, hsign]
  generalize (addWithCarry a m c).r = r
  rw [Bool.eq_iff_iff]
  simp

/-- R700: `P` after the adder holds the sum's carry and overflow, and N and Z of its result. -/
theorem addFlags_flagsFrom (t : Sum) (p : Byte) :
    getFlag .c (addFlags t p) = t.carry ∧ getFlag .v (addFlags t p) = t.overflow ∧
      flagsFrom t.r [.c, .v, .n, .z] p (addFlags t p) := by
  obtain ⟨-, hc⟩ := setFlag_writes .c t.carry p
  obtain ⟨-, hv⟩ := setFlag_writes .v t.overflow (setFlag .c t.carry p)
  obtain ⟨hn, hz, hnz⟩ := setNZ_flagsFrom t.r (setFlag .v t.overflow (setFlag .c t.carry p))
  exact ⟨by simp, by simp, hn, hz, keepsFlagsBut_append (keepsFlagsBut_append hc hv) hnz⟩

/-- R710: the complement that SBC adds. -/
theorem toNat_xor_ff (b : Byte) : (b ^^^ 0xFF).toNat = 255 - b.toNat := by
  rw [show b ^^^ 0xFF = ~~~b from BitVec.xor_allOnes, BitVec.toNat_not]

/-- R705, R710: the byte added to A is ADC's operand, or the complement of SBC's. -/
theorem exec_of_adcSbc {i : Instr} (s : State) (h : i.mnemonic = .adc ∨ i.mnemonic = .sbc) :
    ∃ (f : Byte → Cpu → Cpu) (b : Byte), exec i s = readInstr i.opcode i.mode f s ∧ f (operand i s).1 = addA b ∧
      b.toNat = if i.mnemonic = .adc then (operand i s).1.toNat else 255 - (operand i s).1.toNat := by
  obtain hi | hi := h
  · exact ⟨addA, _, exec_adc i s hi, rfl, (if_pos hi).symm⟩
  · exact ⟨subA, _, exec_sbc i s hi, rfl, (toNat_xor_ff _).trans (if_neg (by simp [hi])).symm⟩

/-- R705, R710: an instruction that reads its operand and has the adder's effect, with `b` the byte added. -/
theorem reads_of_addA {i : Instr} {s : State} {f : Byte → Cpu → Cpu} {b : Byte} {t : Sum}
    (hm : i.mnemonic ∈ readingMnemonics) (he : exec i s = readInstr i.opcode i.mode f s)
    (hf : f (operand i s).1 = addA b) (ht : addWithCarry s.cpu.a b (getFlag .c s.cpu.p) = t) :
    reads i s { s.cpu with a := t.r } fun p =>
      getFlag .c p = t.carry ∧ getFlag .v p = t.overflow ∧ flagsFrom t.r [.c, .v, .n, .z] s.cpu.p p := by
  subst ht
  refine reads_of_readInstr hm he (fun _ => ?_) ?_ <;> rw [hf]
  · rfl
  · exact addFlags_flagsFrom _ s.cpu.p

/-- Settles O30: both have the adder's effect, which does not look at D, with its result and its flags in numbers. -/
theorem adcAndSbcAddInBinary : Obligations.AdcAndSbcAddInBinary := by
  intro i s h m sum r
  obtain ⟨f, b, he, hf, hb⟩ := exec_of_adcSbc s h
  have hsum : s.cpu.a.toNat + b.toNat + (getFlag .c s.cpu.p).toNat = sum := by
    rw [hb, Bool.toNat, Bool.cond_eq_ite]
  have hr : (addWithCarry s.cpu.a b (getFlag .c s.cpu.p)).r = r := by rw [addWithCarry_r, hsum]
  have hreads := reads_of_addA (by obtain hi | hi := h <;> simp [hi, readingMnemonics]) he hf rfl
  rwa [addWithCarry_carry, addWithCarry_overflow_eq_decide, hr, hsum, hb] at hreads

/-! ## Signed overflow -/

/-- A byte read as a signed number: its value, less 256 from 128 up. -/
theorem toInt_byte_cases (b : Byte) :
    (b.toNat < 128 ∧ b.toInt = b.toNat) ∨ (128 ≤ b.toNat ∧ b.toInt = b.toNat - 256) := by
  rw [BitVec.toInt_eq_toNat_cond]
  split <;> omega

/-- Settles O31: by the signs of the operands and the result, the result being the sum modulo 256. -/
theorem overflowMeansSignedOverflow : Obligations.OverflowMeansSignedOverflow := by
  intro a m c sum
  have hsum : sum = a.toInt + m.toInt + c.toNat := by cases c <;> rfl
  have hr : (addWithCarry a m c).r.toNat = (a.toNat + m.toNat + c.toNat) % 256 := by
    rw [addWithCarry_r, BitVec.toNat_ofNat]
  have hc := c.toNat_le
  have ha := toInt_byte_cases a
  have hm := toInt_byte_cases m
  have hresult := toInt_byte_cases (addWithCarry a m c).r
  rw [addWithCarry_overflow_eq_decide, decide_eq_true_eq, decide_eq_false_iff_not]
  constructor <;> omega

/-! ## Comparisons -/

/-- R702: N of a comparison, in numbers. -/
theorem msb_sub_eq_decide (r m : Byte) : (r - m).msb = decide (128 ≤ (r.toNat + 256 - m.toNat) % 256) := by
  have hm := m.isLt
  rw [BitVec.msb_eq_decide, BitVec.toNat_sub, show 2 ^ 8 - m.toNat + r.toNat = r.toNat + 256 - m.toNat by omega]

/-- R702: the flags after a comparison. -/
theorem compareFlags_comparison (r m p : Byte) :
    getFlag .c (compareFlags r m p) = decide (m.toNat ≤ r.toNat) ∧ getFlag .z (compareFlags r m p) = decide (r = m) ∧
      getFlag .n (compareFlags r m p) = decide (128 ≤ (r.toNat + 256 - m.toNat) % 256) ∧
      keepsFlagsBut [.c, .z, .n] p (compareFlags r m p) := by
  refine ⟨?_, ?_, ?_, fun f hf => ?_⟩
  · simp
  · simp [beq_eq_decide]
  · rw [← msb_sub_eq_decide]
    simp
  · obtain ⟨hc, hz, hn⟩ : f ≠ .c ∧ f ≠ .z ∧ f ≠ .n := by simpa using hf
    simp [hc, hz, hn]

/-- Settles O32: the three mnemonics are the reading shape, with a comparison of their register as their effect. -/
theorem comparesAreUnsigned : Obligations.ComparesAreUnsigned := by
  intro i s r h m
  obtain ⟨hi, rfl⟩ | ⟨hi, rfl⟩ | ⟨hi, rfl⟩ := h
  · exact reads_of_readInstr (by simp [hi, readingMnemonics]) (exec_cmp i s hi) (fun _ => rfl) (compareFlags_comparison _ m _)
  · exact reads_of_readInstr (by simp [hi, readingMnemonics]) (exec_cpx i s hi) (fun _ => rfl) (compareFlags_comparison _ m _)
  · exact reads_of_readInstr (by simp [hi, readingMnemonics]) (exec_cpy i s hi) (fun _ => rfl) (compareFlags_comparison _ m _)

end Sys2Proof.Machine

/-! Control transfer (spec/47): the branches (O33), JMP (O34), JSR and RTS (O35), BRK (O36), RTI (O37), each by what it goes on with, and
the returns that undo an entry (O44). -/

namespace Sys2Proof.Machine

open Sys2Proof.Claims Sys2Proof.Laws.Cost

/-! ## Branches -/

/-- R323: a branch's target, in numbers. -/
theorem branchTarget_eq (d : Byte) (s : State) : branchTarget d s = BitVec.ofInt 16 (s.cpu.pc.toNat + d.toInt) := by
  rw [BitVec.ofInt_add, BitVec.ofInt_natCast, BitVec.ofNat_toNat, BitVec.setWidth_eq]
  rfl

/-- R750: what a branch adds to its base: one when taken, one more when its target is on another page. -/
theorem branchCycles_eq (cfg : Config) (opc : Byte) (taken : Bool) (x y : Word) :
    branchCycles cfg opc taken (pageCrossed x y) =
      cyclesOf cfg opc false + if taken then (if y.toNat / 256 = x.toNat / 256 then 1 else 2) else 0 := by
  simp [branchCycles, cyclesOf, pageCrossed_eq, eq_comm (a := x.toNat / 256) (b := y.toNat / 256)]

/-- R750: what an instruction that is a branch does, its flag tested. -/
theorem branches_of_branchInstr {i : Instr} {s : State} {d : Byte} {taken : Bool} (he : exec i s = branchInstr i.opcode d taken s)
    (hd : described i = ⟨2, false⟩) :
    let target : Word := BitVec.ofInt 16 (s.cpu.pc.toNat + d.toInt)
    ∃ cost, exec i s = .next { s with cpu := { s.cpu with pc := if taken then target else s.cpu.pc, budget := cost } } ∧
      (s.cfg.cycleOverrides = [] →
        cost = if taken then (if target.toNat / 256 = s.cpu.pc.toNat / 256 then 3 else 4) else 2) := by
  have hm : i.mnemonic ≠ .decodeFailure := fun h => by simp [described, h] at hd
  intro target
  refine ⟨branchCycles s.cfg i.opcode taken (pageCrossed s.cpu.pc target), ?_, fun hcfg => ?_⟩
  · rw [he, branchInstr, branchTarget_eq]
    cases taken <;> rfl
  · rw [branchCycles_eq, cyclesOf_of_described hcfg hm hd]
    split_ifs <;> rfl

/-- Settles O33: each of the eight is a branch on its flag. -/
theorem branchesTestOneFlag : Obligations.BranchesTestOneFlag := by
  intro s d
  exact ⟨branches_of_branchInstr rfl rfl, branches_of_branchInstr rfl rfl, branches_of_branchInstr rfl rfl,
    branches_of_branchInstr rfl rfl, branches_of_branchInstr rfl rfl, branches_of_branchInstr rfl rfl,
    branches_of_branchInstr rfl rfl, branches_of_branchInstr rfl rfl⟩

/-! ## Jumps -/

/-- R321: the address of the high byte of JMP's pointer, in numbers. -/
theorem indirectHigh_eq (cfg : Config) (a : Word) :
    indirectHigh cfg a =
      if cfg.jmpIndPageWrap then BitVec.ofNat 16 (a.toNat / 256 * 256 + (a.toNat + 1) % 256) else BitVec.ofNat 16 (a.toNat + 1) := by
  unfold indirectHigh
  split
  · have hlow : ((a + 1) &&& 0x00FF).toNat = (a.toNat + 1) % 256 := by
      rw [toNat_and_mask (a + 1) _ 8 rfl, BitVec.toNat_add]
      simp
    have hor := Nat.two_pow_add_eq_or_of_lt (i := 8) (b := (a.toNat + 1) % 256) (by omega) (a.toNat / 256)
    apply BitVec.eq_of_toNat_eq
    rw [BitVec.toNat_or, pageOf_toNat, hlow, ← hor, BitVec.toNat_ofNat]
    omega
  · rw [BitVec.ofNat_add, BitVec.ofNat_toNat, BitVec.setWidth_eq]
    rfl

/-- Settles O34: JMP indirect reads its two bytes one after the other, and neither read changes a register. -/
theorem jumpsGoToTheirTarget : Obligations.JumpsGoToTheirTarget := by
  intro s a low next high
  refine ⟨⟨cyclesOf s.cfg 0x4C false, rfl, fun hcfg => ?_⟩, ⟨cyclesOf s.cfg 0x6C false, ?_, fun hcfg => ?_⟩⟩
  · exact cyclesOf_of_described (i := .jmpAbs a) hcfg nofun rfl false
  · have htarget : indirectTarget a s = (BitVec.ofNat 16 (low.1.toNat + 256 * high.1.toNat), high.2) := by
      rw [indirectTarget, indirectHigh_eq, wordOf_eq]
    have hcpu : high.2.cpu = s.cpu := by rw [busRead_cpu, busRead_cpu]
    have hexec : exec (.jmpInd a) s = .next (((indirectTarget a s).2.setPc (indirectTarget a s).1).charge (cyclesOf s.cfg 0x6C false)) :=
      rfl
    rw [hexec, htarget, ← hcpu]
    rfl
  · exact cyclesOf_of_described (i := .jmpInd a) hcfg nofun rfl false

/-! ## What the entries and the returns go on with -/

/-- R765: all that JSR does. -/
theorem exec_jsr (a : Word) (s : State) :
    exec (.jsr a) s = .next
      { s with
        wram := (s.wram.write (stackCell s.cpu.s) (BitVec.ofNat 8 ((s.cpu.pc - 1).toNat / 256))).write (stackCell (s.cpu.s - 1))
          (BitVec.ofNat 8 (s.cpu.pc - 1).toNat)
        cpu := { s.cpu with s := s.cpu.s - 2, pc := a, budget := cyclesOf s.cfg 0x20 false } } := by
  have hexec : exec (.jsr a) s = .next (((push16 (s.cpu.pc - 1) s).setPc a).charge (cyclesOf s.cfg 0x20 false)) := rfl
  rw [hexec, push16_eq]
  rfl

/-- R766: all that RTS does. -/
theorem exec_rts (s : State) :
    exec .rts s = .next
      { s with
        cpu :=
          { s.cpu with
            s := s.cpu.s + 2,
            pc := wordOf (s.wram.read (stackCell (s.cpu.s + 1))) (s.wram.read (stackCell (s.cpu.s + 2))) + 1,
            budget := cyclesOf s.cfg 0x60 false } } := by
  have hexec : exec .rts s = .next (((pull16 s).2.setPc ((pull16 s).1 + 1)).charge (cyclesOf s.cfg 0x60 false)) := rfl
  rw [hexec, pull16_eq]
  rfl

/-- R790: all that BRK does. -/
theorem exec_brk (s : State) :
    exec .brk s = .next
      { s with
        wram := pushed3 s.wram s.cpu.s (BitVec.ofNat 8 ((s.cpu.pc + 1).toNat / 256)) (BitVec.ofNat 8 (s.cpu.pc + 1).toNat)
          (pushedByProgram s.cpu.p)
        cpu :=
          { s.cpu with
            s := s.cpu.s - 3, p := setFlag .i true s.cpu.p, pc := vectorAt 0xFFFE s, budget := cyclesOf s.cfg 0x00 false } } := by
  have hexec : exec .brk s =
      .next ((enterInterrupt (s.cpu.pc + 1) (pushedByProgram s.cpu.p) irqVector s).charge (cyclesOf s.cfg 0x00 false)) := rfl
  rw [hexec, enterInterrupt_eq _ _ _ _ (by decide) (by decide), wordOf_eq]
  rfl

/-- R791: all that RTI does. -/
theorem exec_rti (s : State) :
    exec .rti s = .next
      { s with
        cpu :=
          { s.cpu with
            s := s.cpu.s + 3, p := pulledStatus (s.wram.read (stackCell (s.cpu.s + 1))),
            pc := wordOf (s.wram.read (stackCell (s.cpu.s + 2))) (s.wram.read (stackCell (s.cpu.s + 3))),
            budget := cyclesOf s.cfg 0x40 false } } := by
  have hexec : exec .rti s = .next ((returnFromInterrupt s).charge (cyclesOf s.cfg 0x40 false)) := rfl
  rw [hexec, returnFromInterrupt_eq]
  rfl

/-- Settles O35: JSR pushes the address before PC, which the fetch left past the instruction; RTS goes one past the one it pulls. -/
theorem jsrPushesAndRtsPullsAnAddress : Obligations.JsrPushesAndRtsPullsAnAddress := by
  intro s a ret lo hi
  refine ⟨⟨cyclesOf s.cfg 0x20 false, exec_jsr a s, fun hcfg => ?_⟩, ⟨cyclesOf s.cfg 0x60 false, ?_, fun hcfg => ?_⟩⟩
  · exact cyclesOf_of_described (i := .jsr a) hcfg nofun rfl false
  · rw [BitVec.ofNat_add (lo.toNat + 256 * hi.toNat) 1, ← wordOf_eq]
    exact exec_rts s
  · exact cyclesOf_of_described (i := .rts) hcfg nofun rfl false

/-- Settles O36: the pushed copy of `P` is the one a program pushes, and I is the one flag written. -/
theorem brkEntersThroughTheIrqVector : Obligations.BrkEntersThroughTheIrqVector := by
  intro s ret
  obtain ⟨hi, hkeeps⟩ := setFlag_writes .i true s.cpu.p
  exact ⟨_, _, _, exec_brk s, fun f => getFlag_pushedByProgram_eq_or f s.cpu.p, hi, hkeeps,
    fun hcfg => cyclesOf_of_described (i := .brk) hcfg nofun rfl false⟩

/-- Settles O37: `P` is taken from the first byte pulled as PLP takes it, PC is the address of the next two. -/
theorem rtiRestoresStatusThenPc : Obligations.RtiRestoresStatusThenPc := by
  intro s b lo hi
  refine ⟨pulledStatus b, cyclesOf s.cfg 0x40 false, ?_, fun f => getFlag_pulledStatus_eq_and f b, fun hcfg => ?_⟩
  · rw [exec_rti, wordOf_eq]
  · exact cyclesOf_of_described (i := .rti) hcfg nofun rfl false

/-! ## A return undoes an entry -/

theorem stackCell_injective : Function.Injective stackCell := fun _ _ h => BitVec.eq_of_toNat_eq (Nat.add_left_cancel h)

/-- R500: the word whose two bytes were pushed, the high one first, is the one its two cells hold. -/
theorem wordOf_pushed_bytes (ret : Word) : wordOf (BitVec.ofNat 8 ret.toNat) (BitVec.ofNat 8 (ret.toNat / 256)) = ret := by
  rw [← lowByte_eq, ← highByte_eq, wordOf_low_high]

/-- R500: after two pushes the two cells hold the bytes pushed. -/
theorem read_two_pushes {m : Memory} (hm : m.wf = true) (sp a b : Byte) :
    ((m.write (stackCell sp) a).write (stackCell (sp - 1)) b).read (stackCell sp) = a ∧
      ((m.write (stackCell sp) a).write (stackCell (sp - 1)) b).read (stackCell (sp - 1)) = b := by
  have hm' := Memory.wf_write (stackCell sp) a hm
  have hne : stackCell sp ≠ stackCell (sp - 1) := stackCell_injective.ne (by bv_omega)
  exact ⟨by rw [Memory.read_write_other _ hm' b hne, Memory.read_write_same _ hm], Memory.read_write_same _ hm' _ b⟩

/-- R500: after three pushes the three cells hold the bytes pushed. -/
theorem read_pushed3 {m : Memory} (hm : m.wf = true) (sp a b c : Byte) :
    (pushed3 m sp a b c).read (stackCell sp) = a ∧ (pushed3 m sp a b c).read (stackCell (sp - 1)) = b ∧
      (pushed3 m sp a b c).read (stackCell (sp - 2)) = c := by
  have hm' := Memory.wf_write (stackCell (sp - 1)) b (Memory.wf_write (stackCell sp) a hm)
  obtain ⟨ha, hb⟩ := read_two_pushes hm sp a b
  have hne : stackCell sp ≠ stackCell (sp - 2) := stackCell_injective.ne (by bv_omega)
  have hne' : stackCell (sp - 1) ≠ stackCell (sp - 2) := stackCell_injective.ne (by bv_omega)
  refine ⟨?_, ?_, Memory.read_write_same _ hm' _ c⟩
  · rw [pushed3, Memory.read_write_other _ hm' c hne, ha]
  · rw [pushed3, Memory.read_write_other _ hm' c hne', hb]

/-- R766: RTS with the bytes of an address on the stack goes one past that address. -/
theorem rts_returns {v w : State} {sp : Byte} {ret : Word} (hs : v.cpu.s = sp - 2)
    (hhigh : v.wram.read (stackCell sp) = BitVec.ofNat 8 (ret.toNat / 256))
    (hlow : v.wram.read (stackCell (sp - 1)) = BitVec.ofNat 8 ret.toNat) (h : exec .rts v = .next w) :
    w.cpu.pc = ret + 1 ∧ w.cpu.s = sp := by
  have hsp1 : v.cpu.s + 1 = sp - 1 := by bv_omega
  have hsp2 : v.cpu.s + 2 = sp := by bv_omega
  rw [exec_rts, hsp1, hsp2, hhigh, hlow, wordOf_pushed_bytes] at h
  cases h
  exact ⟨rfl, rfl⟩

/-- R791: RTI with the bytes of an address and a status on the stack takes the status and goes to the address. -/
theorem rti_returns {v w : State} {sp q : Byte} {ret : Word} (hs : v.cpu.s = sp - 3)
    (hhigh : v.wram.read (stackCell sp) = BitVec.ofNat 8 (ret.toNat / 256))
    (hlow : v.wram.read (stackCell (sp - 1)) = BitVec.ofNat 8 ret.toNat) (hstatus : v.wram.read (stackCell (sp - 2)) = q)
    (h : exec .rti v = .next w) : w.cpu.p = pulledStatus q ∧ w.cpu.s = sp ∧ w.cpu.pc = ret := by
  have hsp1 : v.cpu.s + 1 = sp - 2 := by bv_omega
  have hsp2 : v.cpu.s + 2 = sp - 1 := by bv_omega
  have hsp3 : v.cpu.s + 3 = sp := by bv_omega
  rw [exec_rti, hsp1, hsp2, hsp3, hhigh, hlow, hstatus, wordOf_pushed_bytes] at h
  cases h
  exact ⟨rfl, rfl, rfl⟩

/-- The stack cells `S`, `S - 1` and `S - 2` of one memory hold the bytes they hold in another. -/
def SameStackBytes (sp : Byte) (m m' : Memory) : Prop :=
  m.read (stackCell sp) = m'.read (stackCell sp) ∧ m.read (stackCell (sp - 1)) = m'.read (stackCell (sp - 1)) ∧
    m.read (stackCell (sp - 2)) = m'.read (stackCell (sp - 2))

theorem sameStackBytes_of_forall {sp : Byte} {m m' : Memory}
    (h : ∀ d : Byte, d = 0 ∨ d = 1 ∨ d = 2 → m.read (stackCell (sp - d)) = m'.read (stackCell (sp - d))) :
    SameStackBytes sp m m' :=
  ⟨by simpa using h 0 (.inl rfl), h 1 (.inr (.inl rfl)), h 2 (.inr (.inr rfl))⟩

/-- R1220: RTI with three pushed bytes as they were pushed. -/
theorem rti_undoes_pushed3 {v w : State} {m : Memory} {sp q : Byte} {ret : Word} (hm : m.wf = true) (hs : v.cpu.s = sp - 3)
    (hbytes : SameStackBytes sp v.wram (pushed3 m sp (BitVec.ofNat 8 (ret.toNat / 256)) (BitVec.ofNat 8 ret.toNat) q))
    (h : exec .rti v = .next w) : w.cpu.p = pulledStatus q ∧ w.cpu.s = sp ∧ w.cpu.pc = ret := by
  obtain ⟨hhigh, hlow, hstatus⟩ := hbytes
  obtain ⟨ha, hb, hc⟩ := read_pushed3 hm sp (BitVec.ofNat 8 (ret.toNat / 256)) (BitVec.ofNat 8 ret.toNat) q
  exact rti_returns hs (hhigh.trans ha) (hlow.trans hb) (hstatus.trans hc) h

/-- Settles O44: JSR leaves the two bytes that RTS pulls, a service and BRK the three that RTI pulls, the status among them being a
copy of `P` from which RTI takes a live `P` back whole. -/
theorem returnsUndoEntries : Obligations.ReturnsUndoEntries := by
  intro s u v w hwf hs hbytes
  replace hbytes := sameStackBytes_of_forall hbytes
  refine ⟨fun a hjsr hrts => ?_, fun hb hu hrti => ⟨fun k hservice => ?_, fun hbrk => ?_⟩⟩
  · rw [exec_jsr] at hjsr
    cases hjsr
    obtain ⟨hhigh, hlow, -⟩ := hbytes
    obtain ⟨ha, hb⟩ := read_two_pushes hwf s.cpu.s (BitVec.ofNat 8 ((s.cpu.pc - 1).toNat / 256)) (BitVec.ofNat 8 (s.cpu.pc - 1).toNat)
    obtain ⟨hpc, hsp⟩ := rts_returns hs (hhigh.trans ha) (hlow.trans hb) hrts
    exact ⟨hpc.trans (BitVec.sub_add_cancel s.cpu.pc 1), hsp⟩
  · rw [service_eq] at hservice
    subst hservice
    obtain ⟨hp, hsp, hpc⟩ := rti_undoes_pushed3 hwf hs hbytes hrti
    exact ⟨hp.trans (pulledStatus_pushed s.cpu.p hb hu).2, hsp, hpc⟩
  · rw [exec_brk] at hbrk
    cases hbrk
    obtain ⟨hp, hsp, hpc⟩ := rti_undoes_pushed3 hwf hs hbytes hrti
    exact ⟨hp.trans (pulledStatus_pushed s.cpu.p hb hu).1, hsp, hpc⟩

end Sys2Proof.Machine

/-! The delayed-write queue and the display sink (spec/52): what a boundary makes due falls due before the next one (O10), and nothing of
the CORE depends on `sink_ready` (O12). -/

namespace Sys2Proof.Machine

open Sys2Proof.Laws.Cost

/-! ## The queue is timely -/

/-- R340: an instruction that runs hands over at least its base cost. -/
theorem exec_base_le_budget (i : Instr) {s t : State} (hi : i.mnemonic ≠ .decodeFailure) (h : exec i s = .next t) :
    (costOf s.cfg i.opcode).base ≤ t.cpu.budget := by
  cases i
  case decodeFailure => exact absurd rfl hi
  all_goals
    cases h
    exact Nat.le_add_right _ _

/-- R340: with the table's costs that is two cycles or more. -/
theorem two_le_budget_of_exec {i : Instr} {s t : State} (hcfg : s.cfg.cycleOverrides = []) (hi : i.mnemonic ≠ .decodeFailure)
    (h : exec i s = .next t) : 2 ≤ t.cpu.budget := by
  have hbase := exec_base_le_budget i hi h
  rw [costOf, hcfg, List.lookup_nil, Option.getD_none] at hbase
  exact (every i hi).2.trans hbase

/-- R1120: what a boundary does to an empty queue: it stays empty, or an instruction that costs two cycles or more puts one write
into it, for the delay's dot. -/
theorem boundary_wq {s t : State} (hcfg : s.cfg.cycleOverrides = []) (hwq : s.wq = []) (h : boundary s = .next t) :
    t.dotsTotal = s.dotsTotal ∧ (t.wq = [] ∨ (2 ≤ t.cpu.budget ∧ t.cpu.fault = s.cpu.fault ∧
      ∃ r b, t.wq = [⟨s.dotsTotal + s.cfg.writeDelayDots, r, b⟩])) := by
  unfold boundary at h
  split at h
  · cases h
    rw [service_eq]
    exact ⟨rfl, .inl hwq⟩
  · by_cases hi : (fetchInstr s).1.mnemonic = .decodeFailure
    · rw [fetchExecute, exec_decodeFailure _ _ hi] at h
      cases h
      exact ⟨fetchInstr_dotsTotal s, .inl ((fetchInstr_wq s).trans hwq)⟩
    · have hframe := exec_frame _ hi h
      have htwo := two_le_budget_of_exec (by simpa using hcfg) hi h
      have hentry := hframe.wq
      rw [fetchInstr_wq, hwq, fetchInstr_dotsTotal, fetchInstr_cfg] at hentry
      exact ⟨hframe.dotsTotal.trans (fetchInstr_dotsTotal s),
        hentry.imp id fun hw => ⟨htwo, hframe.fault.trans (fetchInstr_fault s), hw⟩⟩

theorem State.QueueTimely.takeInputs {s : State} (h : s.QueueTimely) : (takeInputs s).QueueTimely := by
  simpa [State.QueueTimely] using h

/-- R1100, R1120: three dots use up one cycle's share of the bound. -/
theorem State.QueueTimely.dots_spend {s : State} (h : s.QueueTimely) : (dots s).spend.QueueTimely := by
  simp only [State.QueueTimely, State.spend_wq, mem_dots_wq, State.spend_dotsTotal, State.spend_cpu, dots_dotsTotal, dots_cpu]
  intro e ⟨hmem, h0, h1, h2⟩
  obtain ⟨hlow, hhigh⟩ := h e hmem
  omega

/-- R1120: with no budget left, the three dots leave the queue empty. -/
theorem State.QueueTimely.dots_wq_nil {s : State} (h : s.QueueTimely) (hb : s.cpu.budget = 0) : (dots s).wq = [] := by
  refine List.eq_nil_iff_forall_not_mem.2 fun e he => ?_
  obtain ⟨hmem, h0, -, -⟩ := (mem_dots_wq s e).1 he
  obtain ⟨hlow, hhigh⟩ := h e hmem
  omega

/-- R1120: what a boundary leaves in an empty queue falls due before the next one. -/
theorem queueTimely_of_boundary {s t : State} (hcfg : s.cfg.StandardTiming) (hf : s.cpu.fault = none) (hwq : s.wq = [])
    (h : boundary s = .next t) : (if t.cpu.fault.isSome then t else t.spend).QueueTimely := by
  obtain ⟨hdots, hnil | ⟨htwo, hfault, r, b, hone⟩⟩ := boundary_wq hcfg.1 hwq h
  · intro e he
    split at he <;> simp [hnil] at he
  · rw [hfault, hf]
    intro e he
    obtain rfl : e = _ := by simpa [hone] using he
    simp only [Option.isSome_none, Bool.false_eq_true, if_false, State.spend_dotsTotal, State.spend_cpu, hdots, hcfg.2]
    omega

/-- Settles O10: a tick that counts the budget uses up one cycle's share of the bound, and a boundary begins with an empty queue. -/
theorem delayedWritesLandBeforeTheNextBoundary : Obligations.DelayedWritesLandBeforeTheNextBoundary := by
  intro s hcfg htimely
  have hempty (hb : s.cpu.budget = 0) : (dots (takeInputs s)).wq = [] := htimely.takeInputs.dots_wq_nil (by simpa using hb)
  refine ⟨fun t hstep => ?_, fun _ _ hb => hempty hb⟩
  obtain ⟨-, rfl⟩ | ⟨-, -, -, rfl⟩ | ⟨-, hf, hb, u, hu, rfl⟩ := step_cases hstep
  · exact htimely.takeInputs
  · exact htimely.takeInputs.dots_spend
  · exact queueTimely_of_boundary (by simpa using hcfg) (by simpa using hf) (hempty hb) hu

/-! ## The sink is not seen -/

theorem SameButSink.takeInputs {s t : State} (h : SameButSink s t) : SameButSink (takeInputs s) (takeInputs t) := by
  obtain ⟨r, c, rfl⟩ := h
  cases hi : s.host.inputs with
  | nil => exact ⟨r, [], by simp [Machine.takeInputs, hi]⟩
  | cons i rest => exact ⟨i.sinkReady, [], by simp [Machine.takeInputs, hi]⟩

theorem SameButSink.dots {s t : State} (h : SameButSink s t) : SameButSink (dots s) (dots t) := h.dotStep.dotStep.dotStep

theorem SameButSink.service {s t : State} (h : SameButSink s t) (k : IntKind) : SameButSink (service k s) (service k t) := by
  obtain ⟨r, c, rfl⟩ := h
  rw [service_eq, service_eq]
  exact ⟨r, c, rfl⟩

theorem SameButSink.pendingInterrupt {s t : State} (h : SameButSink s t) : pendingInterrupt t = pendingInterrupt s := by
  obtain ⟨r, c, rfl⟩ := h
  rfl

/-- R1201: a boundary goes on alike, whether it serves an interrupt or runs an instruction. -/
theorem SameButSink.boundary {s t : State} (h : SameButSink s t) : AlikeOutcome (boundary s) (boundary t) := by
  unfold Machine.boundary
  rw [h.pendingInterrupt]
  cases Machine.pendingInterrupt s with
  | some k => exact ⟨_, _, rfl, rfl, h.service k⟩
  | none =>
    obtain ⟨hi, hs⟩ := h.fetchInstr
    simp only [fetchExecute, hi]
    exact hs.exec _

/-- R1110: so does a processor tick. -/
theorem SameButSink.cpuTick {s t : State} (h : SameButSink s t) : AlikeOutcome (cpuTick s) (cpuTick t) := by
  unfold Machine.cpuTick
  rw [h.cpu]
  split
  · exact ⟨_, _, rfl, rfl, h⟩
  · split
    · obtain ⟨u, v, hu, hv, huv⟩ := h.boundary
      simp only [hu, hv, huv.cpu]
      refine ⟨_, _, rfl, rfl, ?_⟩
      split
      · exact huv
      · exact huv.spend
    · exact ⟨_, _, rfl, rfl, h.spend⟩

/-- R1131: a step that goes on goes on alike from a machine that differs in the sink alone. -/
theorem SameButSink.step {s s' t : State} (h : SameButSink s s') (hstep : step s = .next t) :
    ∃ t', step s' = .next t' ∧ SameButSink t t' := by
  have hrun : (Machine.takeInputs s').host.run = (Machine.takeInputs s).host.run := by
    obtain ⟨r, c, hr⟩ := h.takeInputs
    rw [hr]
  cases hr : (Machine.takeInputs s).host.run with
  | false =>
    rw [step_halted hr] at hstep
    cases hstep
    exact ⟨_, step_halted (hrun.trans hr), h.takeInputs⟩
  | true =>
    cases hf : s.cpu.fault with
    | some f =>
      rw [step_faulted hr hf] at hstep
      cases hstep
    | none =>
      rw [step_ran hr hf] at hstep
      obtain ⟨u, v, hu, hv, huv⟩ := h.takeInputs.dots.cpuTick
      rw [hstep] at hu
      cases hu
      exact ⟨v, (step_ran (hrun.trans hr) (by rw [h.cpu, hf])).trans hv, huv⟩

/-- Settles O12: every part of a step, from the host's inputs to the boundary, goes on alike from two such machines. -/
theorem sinkReadinessNeverReachesTheCore : Obligations.SinkReadinessNeverReachesTheCore := by
  intro s t ready calls hstep
  have halike : SameButSink s { s with host := { s.host with sinkReady := ready, calls := calls } } := ⟨ready, calls, rfl⟩
  obtain ⟨t', ht', r, c, rfl⟩ := halike.step hstep
  exact ⟨r, c, ht'⟩

end Sys2Proof.Machine

/-! The machine step (spec/52): its inputs, its dots and its tick (O60), and the instruction it runs (O6); what faults (O13); the boundary's
choice (O42) and the service (O43) of spec/60; the machine at power-on (O8, O9) of spec/70. -/

namespace Sys2Proof.Machine

open Sys2Proof.Claims

/-! ## The step -/

theorem takeInputs_cons {s : State} {i : HostInput} {rest : List HostInput} (h : s.host.inputs = i :: rest) :
    takeInputs s =
      { s with
        cpu := { s.cpu with resetPending := s.cpu.resetPending || i.resetReq }
        host := { s.host with run := i.run, irqLine := i.irqLine, sinkReady := i.sinkReady, inputs := rest, calls := [] } } := by
  unfold takeInputs
  rw [h]

/-- R1310: taking the host's inputs changes the processor's pending reset and the host's side, and nothing else. -/
theorem takeInputs_eq (s : State) : takeInputs s = { s with cpu := (takeInputs s).cpu, host := (takeInputs s).host } := by
  unfold takeInputs
  split <;> rfl

/-- R1110: a tick between boundaries. -/
theorem cpuTick_of_budget {s : State} (hf : s.cpu.fault = none) (hb : s.cpu.budget ≠ 0) : cpuTick s = .next s.spend := by
  obtain ⟨t, ht⟩ := cpuTick_next hf
  obtain ⟨-, rfl⟩ | ⟨hzero, -⟩ := cpuTick_cases hf ht
  · exact ht
  · exact absurd hzero hb

/-- R1110, R1241: a tick at a boundary is counted unless the boundary faulted. -/
theorem cpuTick_of_boundary {s t : State} (hf : s.cpu.fault = none) (hb : s.cpu.budget = 0) (h : boundary s = .next t) :
    cpuTick s = .next (if t.cpu.fault = none then { t with cpu := { t.cpu with budget := t.cpu.budget - 1 } } else t) := by
  obtain ⟨v, hv⟩ := cpuTick_next hf
  obtain ⟨hne, -⟩ | ⟨-, u, hu, rfl⟩ := cpuTick_cases hf hv
  · exact absurd hb hne
  · cases h.symm.trans hu
    rw [hv]
    cases t.cpu.fault <;> rfl

/-- R1201: the interrupt service or the instruction of a boundary leaves the count of the dots. -/
theorem boundary_dotsTotal {s t : State} (h : boundary s = .next t) : t.dotsTotal = s.dotsTotal := by
  unfold boundary at h
  split at h
  · cases h
    rw [service_eq]
  · by_cases hi : (fetchInstr s).1.mnemonic = .decodeFailure
    · rw [fetchExecute, exec_decodeFailure _ _ hi] at h
      cases h
      exact fetchInstr_dotsTotal s
    · exact (exec_frame _ hi h).dotsTotal.trans (fetchInstr_dotsTotal s)

/-- R1100: a step that ran went three dots on. -/
theorem step_dotsTotal {s t : State} (hr : (takeInputs s).host.run = true) (h : step s = .next t) : t.dotsTotal = s.dotsTotal + 3 := by
  obtain ⟨hhalt, -⟩ | ⟨-, -, -, rfl⟩ | ⟨-, -, -, u, hu, rfl⟩ := step_cases h
  · exact absurd (hr.symm.trans hhalt) nofun
  · simp
  · have hdots := boundary_dotsTotal hu
    rw [dots_dotsTotal, takeInputs_dotsTotal] at hdots
    split <;> exact hdots

/-- Settles O60: the step's three cases, halted, faulted already and run, and the two cases of the tick. -/
theorem machineStepRunsThreeDotsOrNone : Obligations.MachineStepRunsThreeDotsOrNone := by
  intro s
  refine ⟨takeInputs_none s, fun i rest => takeInputs_cons, ?_⟩
  intro asked
  have hcpu : (takeInputs s).cpu = { s.cpu with resetPending := s.cpu.resetPending || asked } := by
    cases hi : s.host.inputs with
    | nil => simp [takeInputs_none s hi, asked, hi]
    | cons i rest => simp [takeInputs_cons hi, asked, hi]
  refine ⟨fun hr hf => ?_, fun hr => ?_, fun hr hi hc => ?_, fun f => step_faulted⟩
  · intro d
    have hfd : d.cpu.fault = none := by simpa [d] using hf
    have hbd : d.cpu.budget = s.cpu.budget := by simp [d]
    have hstep : step s = cpuTick d := step_ran hr hf
    obtain ⟨-, hdcpu, -, -, -, -, hdhost⟩ := dots_facts (takeInputs s)
    refine ⟨?_, ⟨hdcpu.trans hcpu, hdhost⟩, fun hb => ?_, fun hb => ?_⟩
    · obtain ⟨t, ht⟩ := cpuTick_next hfd
      exact ⟨t, hstep.trans ht, step_dotsTotal hr (hstep.trans ht)⟩
    · rw [hstep, cpuTick_of_budget hfd (by rwa [hbd]), ← hbd]
      rfl
    · obtain ⟨t, ht⟩ := boundary_next d
      exact ⟨t, ht, hstep.trans (cpuTick_of_boundary hfd (hbd.trans hb) ht)⟩
  · rw [step_halted hr, ← hcpu, ← takeInputs_eq]
  · have hsame : takeInputs s = s := by
      rw [takeInputs_none s hi, ← hc]
    rw [step_halted (by rw [hsame, hr]), hsame]

/-- Settles O6: the dots leave the processor and its memory, so the boundary fetches at PC what the bytes there decode to. -/
theorem stepRunsTheDecodedInstruction : Obligations.StepRunsTheDecodedInstruction := by
  intro s t i rest hr hf hb hp hplace hdecode hexec
  obtain ⟨-, hi, -⟩ := decode_cons_eq_ok_iff.1 hdecode
  have hpeek (a : Word) : peek a (dots (takeInputs s)) = peek a s := peek_congr (by simp) (by simp) (by simp)
  have hfetch : fetchInstr (dots (takeInputs s)) =
      (i, (dots (takeInputs s)).setPc (s.cpu.pc + BitVec.ofNat 16 (encode i).length)) := by
    have h := fetchInstr_of_placeable (s := dots (takeInputs s)) (i := i)
    simp only [dots_cfg, takeInputs_cfg, dots_cpu, takeInputs_cpu_pc, hpeek] at h
    exact h hplace hi
  have hboundary : boundary (dots (takeInputs s)) = .next t := by
    rw [boundary, hp, fetchExecute, hfetch]
    exact hexec
  rw [step_ran hr hf]
  exact cpuTick_of_boundary (by simpa using hf) (by simpa using hb) hboundary

/-! ## Faults, the boundary and the service -/

/-- Settles O13: the decode failure is the one instruction outside the frame that keeps `cpu_fault`. -/
theorem onlyADecodeFailureFaults : Obligations.OnlyADecodeFailureFaults := by
  intro i s
  obtain ⟨t, ht⟩ := exec_next i s
  refine ⟨t, ht, fun hi => (exec_frame i hi ht).fault, fun hi => ?_⟩
  rw [exec_decodeFailure i s hi] at ht
  cases ht
  rfl

/-- Settles O42: the three sources in the order of R1201, I masking the last. -/
theorem boundaryTakesNmiThenResetThenIrq : Obligations.BoundaryTakesNmiThenResetThenIrq := by
  intro s
  refine ⟨fun hn => ?_, fun hn hr => ?_, fun hn hr hq hi => ?_, fun hn hr hq => ?_⟩
  · simp [boundary, pendingInterrupt, hn]
  · simp [boundary, pendingInterrupt, hn, hr]
  · simp [boundary, pendingInterrupt, hn, hr, hq, hi]
  · have hnone : (s.host.irqLine && !getFlag .i s.cpu.p) = false := by
      obtain hq | hi := hq
      · rw [hq, Bool.false_and]
      · rw [hi, Bool.not_true, Bool.and_false]
    simp [boundary, pendingInterrupt, hn, hr, hnone, fetchExecute]

/-- R1210: the copy of `P` that a service pushes, flag by flag. -/
theorem getFlag_pushedByService_eq_and (f : Flag) (p : Byte) :
    getFlag f (pushedByService p) = (f == .u || (f != .b && getFlag f p)) := by
  rw [getFlag_pushedByService]
  cases f <;> rfl

/-- Settles O43: the service writes I alone of `P`, and pushes the copy of R1210. -/
theorem servicePushesPcAndStatus : Obligations.ServicePushesPcAndStatus := by
  intro k s
  obtain ⟨hi, hkeeps⟩ := setFlag_writes .i true s.cpu.p
  refine ⟨setFlag .i true s.cpu.p, pushedByService s.cpu.p, ?_, fun f => getFlag_pushedByService_eq_and f s.cpu.p, hi, hkeeps⟩
  rw [service_eq, wordOf_eq]
  cases k <;> rfl

/-! ## Power-on -/

/-- R1300: the machine invariant at power-on: what an image and the first contents bring is of its size, and the rest is fixed. -/
theorem powerOn_inv (cfg : Config) {image : Cartridge} {init : PowerOnInit} (himage : image.valid = true)
    (hwram : Memory.ok wramSize init.wram = true) (hciram : Memory.ok ciramSize init.ciram = true)
    (hpal : Memory.ok palSize init.pal = true) (hoam : Memory.ok oamSize init.oam = true)
    (hoam2 : Memory.ok oam2Size init.ppu.oam2 = true) (hspr : init.ppu.spr.length = 8) (hcount : init.ppu.oam2Count ≤ 8) :
    (State.powerOn cfg image init).Inv := by
  obtain ⟨hprg, hchr⟩ := Bool.and_eq_true_iff.1 himage
  have hlive : getFlag .b 0x24 = false ∧ getFlag .u 0x24 = true := by decide
  exact State.Inv.mk ⟨hlive.1, hlive.2, fun h => absurd rfl h⟩
    ⟨Nat.zero_le _, Nat.zero_le _, hspr, hcount, hoam2, hchr, hciram, hpal, hoam⟩ hwram hprg nofun (Nat.zero_le _)

/-- Settles O8: `State.reset` is the power-on of the blank image, which is valid, with legal contents. -/
theorem powerOnMeetsTheMachineInvariant : Obligations.PowerOnMeetsTheMachineInvariant := by
  refine ⟨powerOn_inv _ rfl rfl rfl rfl rfl rfl rfl (Nat.zero_le _), fun cfg image init s h => ?_⟩
  obtain ⟨himage, rfl⟩ : image.valid = true ∧ State.powerOn cfg image init = s := by
    simpa [State.powerOnChecked] using h
  exact powerOn_inv cfg himage

/-- Settles O9: the reset vector lies in program ROM, where `peek` looks. -/
theorem powerOnLoadsPcFromTheResetVector : Obligations.PowerOnLoadsPcFromTheResetVector := by
  intro cfg image init s
  refine ⟨rfl, rfl, ?_, rfl, rfl, rfl, rfl, rfl, rfl⟩
  exact wordOf_eq _ _

end Sys2Proof.Machine

/-! ISC (spec/48, O39). -/

namespace Sys2Proof.Machine

open Sys2Proof.Claims

/-- R820: each mode of ISC has an address. -/
theorem isc_address {i : Instr} (s : State) (h : i.mnemonic = .isc) : ∃ ea, (resolve i.mode s).op = .mem ea := by
  cases i <;> cases h <;> exact ⟨_, rfl⟩

/-- Settles O39: ISC is the read-modify-write shape, with the adder's effect on the complement of the byte it wrote back. -/
theorem iscIncrementsThenSubtracts : Obligations.IscIncrementsThenSubtracts := by
  intro i s h m v sum r
  obtain ⟨ea, hea⟩ := isc_address s h
  have hm : i.mnemonic ∈ modifyingMnemonics := by simp [h, modifyingMnemonics]
  have hv : m.1 + 1 = v := add_one_eq_ofNat m.1
  have hsum : s.cpu.a.toNat + (v ^^^ 0xFF).toNat + (getFlag .c s.cpu.p).toNat = sum := by
    rw [toNat_xor_ff, Bool.toNat, Bool.cond_eq_ite]
  have hr : (addWithCarry s.cpu.a (v ^^^ 0xFF) (getFlag .c s.cpu.p)).r = r := by rw [addWithCarry_r, hsum]
  obtain ⟨hc, hover, hflags⟩ := addFlags_flagsFrom (addWithCarry s.cpu.a (v ^^^ 0xFF) (getFlag .c s.cpu.p)) s.cpu.p
  rw [addWithCarry_carry, hsum] at hc
  rw [addWithCarry_overflow_eq_decide, toNat_xor_ff, hr] at hover
  rw [hr] at hflags
  refine ⟨ea, _, cyclesOf s.cfg i.opcode (resolve i.mode s).pen, hea, ?_, hc, hover, hflags, fun hcfg => cyclesOf_modifying hcfg hm _⟩
  rw [exec_isc i s h, modifyInstr_of_mem hea, iscValue, iscEffect, hv, ← hr]
  rfl

end Sys2Proof.Machine

/-! The PPU's registers (spec/51): the status (O45), the control (O48), the mask and the OAM port (O49), the scroll and address registers
(O47), the data port (O46) and the delayed writes (O50). -/

namespace Sys2Proof.Machine

/-! ## Writes taking effect -/

/-- R1003: a write of any register but `$2000` is its handler's, and nothing else. -/
theorem applyRegWrite_of_ne {r : RegIndex} (h : r ≠ 0) (b : Byte) (s : State) :
    applyRegWrite r b s = { s with ppu := ppuRegWrite s.cfg.mirroring r b s.ppu } := by
  rw [applyRegWrite, beq_eq_false_iff_ne.2 h, Bool.false_and, Bool.or_false]

/-- R1020: the bits of the byte `$2002` answers. -/
theorem getLsbD_statusByte (q : Ppu) (k : Nat) : (statusByte q).getLsbD k = ((k == 7 && q.vblank) || (k == 6 && q.s0hit)) := by
  have hv : (0x80#8).getLsbD k = (k == 7) := by
    rw [show 0x80#8 = BitVec.twoPow 8 7 from rfl, BitVec.getLsbD_twoPow, BEq.comm]
    rfl
  have hs : (0x40#8).getLsbD k = (k == 6) := by
    rw [show 0x40#8 = BitVec.twoPow 8 6 from rfl, BitVec.getLsbD_twoPow, BEq.comm]
    rfl
  rw [statusByte, BitVec.getLsbD_or]
  cases q.vblank <;> cases q.s0hit <;> simp [hv, hs]

/-- Settles O45: bit 7 of the answer is the flag that the read clears. -/
theorem statusReadClearsVblankAndToggle : Obligations.StatusReadClearsVblankAndToggle := by
  intro mir q b
  refine ⟨rfl, getLsbD_statusByte q, ?_, rfl, fun s => ?_⟩
  · exact (getLsbD_statusByte { q with vblank := false, w := false } 7).trans (by simp)
  · exact applyRegWrite_of_ne (by decide) b s

/-- Settles O49: the three handlers, none of them that of `$2000`. -/
theorem maskAndOamWritesStoreTheirByte : Obligations.MaskAndOamWritesStoreTheirByte := by
  intro s b
  refine ⟨applyRegWrite_of_ne (by decide) b s, applyRegWrite_of_ne (by decide) b s, ?_⟩
  rw [← add_one_eq_ofNat]
  exact applyRegWrite_of_ne (by decide) b s

/-! ## The fields of `t` -/

/-- A masked merge, bit by bit: where the mask has a 1 the new bits, where it has a 0 the old ones. -/
theorem getLsbD_merge {n : Nat} {old new mask : BitVec n} (hnew : new &&& mask = new) (i : Nat) :
    ((old &&& ~~~mask) ||| new).getLsbD i = if mask.getLsbD i then new.getLsbD i else old.getLsbD i := by
  have hbit : (new.getLsbD i && mask.getLsbD i) = new.getLsbD i := by rw [← BitVec.getLsbD_and, hnew]
  rw [BitVec.getLsbD_or, BitVec.getLsbD_and, BitVec.getLsbD_not, ← hbit]
  by_cases hi : i < n
  · cases mask.getLsbD i <;> simp [hi]
  · simp [BitVec.getLsbD_of_ge _ _ (Nat.le_of_not_lt hi)]

/-- R144: a merge leaves a field that its mask spares. -/
theorem field_of_merge_spared {old new mask : VramReg} {start len : Nat} (hnew : new &&& mask = new)
    (h : ∀ i < len, mask.getLsbD (start + i) = false) :
    ((old &&& ~~~mask) ||| new).extractLsb' start len = old.extractLsb' start len := by
  refine BitVec.eq_of_getLsbD_eq fun i hi => ?_
  rw [BitVec.getLsbD_extractLsb', BitVec.getLsbD_extractLsb', getLsbD_merge hnew, h i hi]
  rfl

/-- R144: a merge writes a field that its mask covers. -/
theorem field_of_merge_covered {old new mask : VramReg} {start len : Nat} (hnew : new &&& mask = new)
    (h : ∀ i < len, mask.getLsbD (start + i) = true) :
    ((old &&& ~~~mask) ||| new).extractLsb' start len = new.extractLsb' start len := by
  refine BitVec.eq_of_getLsbD_eq fun i hi => ?_
  rw [BitVec.getLsbD_extractLsb', BitVec.getLsbD_extractLsb', getLsbD_merge hnew, h i hi]
  rfl

/-- R1010: the nametable field of a byte written to `$2000`. -/
theorem ctrl_field_within (b : Byte) : ((b.setWidth 15 &&& 3) <<< 10) &&& 0x0C00 = ((b.setWidth 15 &&& 3) <<< 10 : VramReg) := by
  refine BitVec.eq_of_getLsbD_eq fun i hi => ?_
  interval_cases i <;> simp

theorem ntSelect_ctrl_field (b : Byte) : (ntSelect ((b.setWidth 15 &&& 3) <<< 10)).toNat = b.toNat % 4 := by
  have hfield : ntSelect ((b.setWidth 15 &&& 3) <<< 10) = b.setWidth 2 := by
    refine BitVec.eq_of_getLsbD_eq fun i hi => ?_
    interval_cases i <;> simp [ntSelect]
  rw [hfield, BitVec.toNat_setWidth]

/-- Settles O48: the write merges two bits of the byte into `t`, under a mask that covers the nametable field alone. -/
theorem controlWriteCanRaiseNmi : Obligations.ControlWriteCanRaiseNmi := by
  intro s b
  refine ⟨_, rfl, ?_, ?_, ?_, ?_⟩
  · exact (congrArg BitVec.toNat (field_of_merge_covered (ctrl_field_within b) (by decide))).trans (ntSelect_ctrl_field b)
  · exact field_of_merge_spared (ctrl_field_within b) (by decide)
  · exact field_of_merge_spared (ctrl_field_within b) (by decide)
  · exact field_of_merge_spared (ctrl_field_within b) (by decide)

/-- R1050: the five bits of a coarse field, from a byte. -/
theorem coarse_of_byte (b : Byte) : ((b >>> 3).setWidth 5).toNat = b.toNat / 8 := by
  have hb := b.isLt
  rw [BitVec.toNat_setWidth, BitVec.toNat_ushiftRight, Nat.shiftRight_eq_div_pow]
  omega

/-- R1050: what the first write of `$2005` merges into `t`. -/
def firstScroll (b : Byte) : VramReg := b.setWidth 15 >>> 3

/-- R1050: what the second write of `$2005` merges into `t`. -/
def secondScroll (b : Byte) : VramReg := ((b.setWidth 15 &&& 7) <<< 12) ||| ((b.setWidth 15 >>> 3) <<< 5)

theorem firstScroll_within (b : Byte) : firstScroll b &&& 0x001F = firstScroll b := by
  refine BitVec.eq_of_getLsbD_eq fun i hi => ?_
  interval_cases i <;> simp [firstScroll]

theorem secondScroll_within (b : Byte) : secondScroll b &&& 0x73E0 = secondScroll b := by
  refine BitVec.eq_of_getLsbD_eq fun i hi => ?_
  interval_cases i <;> simp [secondScroll]

theorem coarseX_firstScroll (b : Byte) : coarseX (firstScroll b) = (b >>> 3).setWidth 5 := by
  refine BitVec.eq_of_getLsbD_eq fun i hi => ?_
  interval_cases i <;> simp [coarseX, firstScroll]

theorem coarseY_secondScroll (b : Byte) : coarseY (secondScroll b) = (b >>> 3).setWidth 5 := by
  refine BitVec.eq_of_getLsbD_eq fun i hi => ?_
  interval_cases i <;> simp [coarseY, secondScroll]

theorem fineY_secondScroll (b : Byte) : fineY (secondScroll b) = b.setWidth 3 := by
  refine BitVec.eq_of_getLsbD_eq fun i hi => ?_
  interval_cases i <;> simp [fineY, secondScroll]

/-- R1050: the first write of `$2005`. -/
theorem scrollWrite_first {q : Ppu} (b : Byte) (h : q.w = false) :
    scrollWrite b q = { q with fineX := b.setWidth 3, t := (q.t &&& ~~~0x001F#15) ||| firstScroll b, w := true } := by
  simp [scrollWrite, h, firstScroll]

/-- R1050: the second write of `$2005`. -/
theorem scrollWrite_second {q : Ppu} (b : Byte) (h : q.w = true) :
    scrollWrite b q = { q with t := (q.t &&& ~~~0x73E0#15) ||| secondScroll b, w := false } := by
  simp [scrollWrite, h, secondScroll, BitVec.or_assoc]

/-- R1060: the value of `t` after the first write of `$2006`: six bits of the byte above the low byte. -/
theorem addr_first_eq (t : VramReg) (b : Byte) :
    (t &&& 0x00FF) ||| ((b.setWidth 15 &&& 0x3F) <<< 8) = BitVec.ofNat 15 (b.toNat % 64 * 256 + t.toNat % 256) := by
  have happend : (t &&& 0x00FF) ||| ((b.setWidth 15 &&& 0x3F) <<< 8) = (b.setWidth 6 ++ t.setWidth 8).setWidth 15 := by
    refine BitVec.eq_of_getLsbD_eq fun i hi => ?_
    rw [BitVec.getLsbD_setWidth, BitVec.getLsbD_append]
    interval_cases i <;> simp
  have hlow : t.toNat % 256 < 2 ^ 8 := Nat.mod_lt _ (by decide)
  refine happend.trans (BitVec.eq_of_toNat_eq ?_)
  rw [BitVec.toNat_setWidth, BitVec.toNat_append, BitVec.toNat_setWidth, BitVec.toNat_setWidth, BitVec.toNat_ofNat,
    ← Nat.shiftLeft_add_eq_or_of_lt hlow, Nat.shiftLeft_eq]

/-- R1060: the value of `t` after the second write of `$2006`: the byte below the high byte. -/
theorem addr_second_eq (t : VramReg) (b : Byte) :
    (t &&& 0x7F00) ||| b.setWidth 15 = BitVec.ofNat 15 (t.toNat / 256 * 256 + b.toNat) := by
  have happend : (t &&& 0x7F00) ||| b.setWidth 15 = ((t >>> 8).setWidth 7 ++ b : BitVec 15) := by
    refine BitVec.eq_of_getLsbD_eq fun i hi => ?_
    rw [BitVec.getLsbD_append]
    interval_cases i <;> simp
  have ht := t.isLt
  have hhigh : t.toNat / 256 < 2 ^ 7 := by omega
  refine happend.trans (BitVec.eq_of_toNat_eq ?_)
  rw [BitVec.toNat_append, BitVec.toNat_setWidth, BitVec.toNat_ushiftRight, BitVec.toNat_ofNat, Nat.shiftRight_eq_div_pow,
    Nat.mod_eq_of_lt hhigh, ← Nat.shiftLeft_add_eq_or_of_lt b.isLt, Nat.shiftLeft_eq]
  omega

/-- R1060: the first write of `$2006`. -/
theorem addrWrite_first {q : Ppu} (b : Byte) (h : q.w = false) :
    addrWrite b q = { q with t := BitVec.ofNat 15 (b.toNat % 64 * 256 + q.t.toNat % 256), w := true } := by
  simp [addrWrite, h, ← addr_first_eq]

/-- R1060: the second write of `$2006`. -/
theorem addrWrite_second {q : Ppu} (b : Byte) (h : q.w = true) :
    addrWrite b q =
      { q with
        t := BitVec.ofNat 15 (q.t.toNat / 256 * 256 + b.toNat), v := BitVec.ofNat 15 (q.t.toNat / 256 * 256 + b.toNat),
        w := false } := by
  simp [addrWrite, h, ← addr_second_eq]

/-- R1050: the first write of `$2005` fills the coarse X field. -/
theorem firstScroll_fields (b : Byte) (old t : VramReg) (ht : t = (old &&& ~~~0x001F#15) ||| firstScroll b) :
    (coarseX t).toNat = b.toNat / 8 ∧ coarseY t = coarseY old ∧ ntSelect t = ntSelect old ∧ fineY t = fineY old := by
  subst ht
  have hx : coarseX ((old &&& ~~~0x001F#15) ||| firstScroll b) = coarseX (firstScroll b) :=
    field_of_merge_covered (firstScroll_within b) (by decide)
  refine ⟨?_, field_of_merge_spared (firstScroll_within b) (by decide), field_of_merge_spared (firstScroll_within b) (by decide),
    field_of_merge_spared (firstScroll_within b) (by decide)⟩
  rw [hx, coarseX_firstScroll, coarse_of_byte]

/-- R1050: the second write of `$2005` fills the coarse Y and the fine Y field. -/
theorem secondScroll_fields (b : Byte) (old t : VramReg) (ht : t = (old &&& ~~~0x73E0#15) ||| secondScroll b) :
    coarseX t = coarseX old ∧ (coarseY t).toNat = b.toNat / 8 ∧ ntSelect t = ntSelect old ∧ (fineY t).toNat = b.toNat % 8 := by
  subst ht
  have hy : coarseY ((old &&& ~~~0x73E0#15) ||| secondScroll b) = coarseY (secondScroll b) :=
    field_of_merge_covered (secondScroll_within b) (by decide)
  have hf : fineY ((old &&& ~~~0x73E0#15) ||| secondScroll b) = fineY (secondScroll b) :=
    field_of_merge_covered (secondScroll_within b) (by decide)
  refine ⟨field_of_merge_spared (secondScroll_within b) (by decide), ?_,
    field_of_merge_spared (secondScroll_within b) (by decide), ?_⟩
  · rw [hy, coarseY_secondScroll, coarse_of_byte]
  · rw [hf, fineY_secondScroll, BitVec.toNat_setWidth]

/-- Settles O47: the writes of `$2005` merge into `t` under a mask that covers the fields written and spares the others; those of
`$2006` put their byte beside the other byte of `t`. -/
theorem scrollAndAddressWritesFillT : Obligations.ScrollAndAddressWritesFillT := by
  intro mir q b
  refine ⟨fun hw => ⟨⟨_, scrollWrite_first b hw, firstScroll_fields b q.t _ rfl⟩, addrWrite_first b hw⟩,
    fun hw => ⟨⟨_, scrollWrite_second b hw, secondScroll_fields b q.t _ rfl⟩, addrWrite_second b hw⟩,
    fun s => ⟨applyRegWrite_of_ne (by decide) b s, applyRegWrite_of_ne (by decide) b s⟩⟩

/-! ## The data port -/

/-- R1070: a `$2007` read below the palette answers the buffer and fills it. -/
theorem dataRead_buffered {mir : Mirroring} {q : Ppu} (h : ppuAddr (vramWord q.v) < 0x3F00) :
    dataRead mir q = (q.readBuf, { q with readBuf := ppuRead mir (ppuAddr (vramWord q.v)) q, v := q.v + vramStep q }) :=
  if_pos h

/-- R1070: a `$2007` read in the palette answers its byte at once. -/
theorem dataRead_palette {mir : Mirroring} {q : Ppu} (h : ¬ppuAddr (vramWord q.v) < 0x3F00) :
    dataRead mir q = (ppuRead mir (ppuAddr (vramWord q.v)) q, { q with v := q.v + vramStep q }) :=
  if_neg h

/-- R1071: a `$2007` write is one of the PPU bus, and steps `v`. -/
theorem dataWrite_eq (mir : Mirroring) (b : Byte) (q : Ppu) :
    dataWrite mir b q = { ppuWrite mir (ppuAddr (vramWord q.v)) b q with v := q.v + vramStep q } := by
  simp [dataWrite, stepVram, vramStep]

/-- Settles O46: the address is `v` on the PPU bus, its step is `v`'s in numbers. -/
theorem dataPortBuffersBelowThePalette : Obligations.DataPortBuffersBelowThePalette := by
  intro mir q b a next
  have ha : ppuAddr (vramWord q.v) = a := ppuAddr_vramWord q.v
  have hnext : q.v + vramStep q = next := vramStep_eq q
  refine ⟨fun h => ?_, fun h => ?_, ?_, fun s => applyRegWrite_of_ne (by decide) b s⟩
  · rw [← ha, ← hnext]
    exact dataRead_buffered (ha ▸ h)
  · rw [← ha, ← hnext]
    exact dataRead_palette (ha ▸ Nat.not_lt.2 h)
  · rw [← ha, ← hnext]
    exact dataWrite_eq mir b q

/-! ## Delayed writes -/

/-- R1101: a dot step counts itself, and its dot does not. -/
theorem dotStep_eq (s : State) : dotStep s = { ppuDot (applyDue s) with dotsTotal := s.dotsTotal + 1 } := by
  obtain ⟨q, n, calls, hdot, -, -⟩ := ppuDot_frame (applyDue s)
  obtain ⟨q', n', hdue, -⟩ := applyDue_frame s
  rw [dotStep, hdot, hdue]

/-- R1101: what is not due stays queued. -/
theorem applyDue_wq (s : State) : (applyDue s).wq = s.wq.filter fun e => decide (e.target ≠ s.dotsTotal) := by
  obtain ⟨q, n, hdue, -⟩ := applyDue_frame s
  rw [hdue]
  exact List.filter_congr fun e _ => by simp [bne, beq_eq_decide]

/-- Settles O50: the window's dispatch, and the parts of a dot step. -/
theorem delayedRegistersAreQueued : Obligations.DelayedRegistersAreQueued := by
  refine ⟨fun s a b h h' => ?_, fun s => ?_⟩
  · intro r
    rw [busWrite_of_ppu b s h h', regIndex_eq, issueRegWrite]
    exact ⟨fun hr => if_neg (mt List.contains_iff_mem.1 hr), fun hr => if_pos (List.contains_iff_mem.2 hr)⟩
  · exact ⟨rfl, dotStep_eq s, applyDue_wq s, applyDue_of_none_due, fun before after e => applyDue_of_first_due⟩

end Sys2Proof.Machine

/-! A dot of the PPU (spec/50), taken apart: its position, its two pipelines and its two flags, none of which sees another's work; from
this the position (O51), vertical blank (O52) and the gates (O54). -/

namespace Sys2Proof.Machine

open Sys2Proof.Claims

/-! ## The background pipeline in one equation -/

/-- R910: the action of a dot of the fetch windows, field by field. -/
theorem bgFetch_eq (m : Mirroring) (q : Ppu) :
    bgFetch m q =
      { q with
        ntByte := if q.dot % 8 = 1 then ppuRead m (ntAddr q.v) q else q.ntByte
        atBits := if q.dot % 8 = 3 then atSelect (ppuRead m (atAddr q.v) q) q.v else q.atBits
        ptLo := if q.dot % 8 = 5 then ppuRead m (bgPatAddr q.ctrl q.ntByte q.v) q else q.ptLo
        ptHi := if q.dot % 8 = 7 then ppuRead m (bgPatAddr q.ctrl q.ntByte q.v + 8) q else q.ptHi
        bgLo := if q.dot % 8 = 0 then loadLow q.bgLo q.ptLo else q.bgLo
        bgHi := if q.dot % 8 = 0 then loadLow q.bgHi q.ptHi else q.bgHi
        bgAt0 := if q.dot % 8 = 0 then loadLow q.bgAt0 (broadcast (q.atBits.getLsbD 0)) else q.bgAt0
        bgAt1 := if q.dot % 8 = 0 then loadLow q.bgAt1 (broadcast (q.atBits.getLsbD 1)) else q.bgAt1
        v := if q.dot % 8 = 0 then (if q.dot = 256 then incY (incX q.v) else incX q.v) else q.v } := by
  unfold bgFetch
  split
  next h => simp [h]
  next h => simp [h]
  next h => simp [h]
  next h => simp [h]
  next h =>
    by_cases hend : q.dot = 256
    · simp [hend, bgReload]
    · simp [h, hend, bgReload]
  next h1 h3 h5 h7 h0 => simp only [if_neg h1, if_neg h3, if_neg h5, if_neg h7, if_neg h0]

/-- R905, R910: whether the background pipeline works, in the model's own terms. -/
theorem bgWorks_eq (q : Ppu) : bgWorks q = (q.bgOn && q.onRenderLine && q.inBgWindow) := by
  rw [Bool.eq_iff_iff]
  simp [bgWorks, Ppu.bgOn, regBit, Ppu.onRenderLine, Ppu.onVisibleLine, Ppu.inBgWindow, Ppu.dotIn, and_assoc]

/-- R915, R916: `v` after the reloads. -/
def scrolledV (q : Ppu) : VramReg :=
  if q.dot = 257 then reloadX q.v q.t
  else if q.scanline = 261 ∧ 280 ≤ q.dot ∧ q.dot ≤ 304 then reloadY q.v q.t
  else q.v

theorem bgScroll_eq (q : Ppu) : bgScroll q = { q with v := scrolledV q } := by
  unfold bgScroll scrolledV
  split
  · rfl
  · split <;> rfl

/-- R910, R912, R913 to R916: `v` after the background pipeline's dot. -/
def nextV (q : Ppu) : VramReg :=
  if bgWorksAt 0 q then (if q.dot = 256 then incY (incX q.v) else incX q.v)
  else if q.bgOn && q.onRenderLine && !bgWorks q then scrolledV q
  else q.v

/-- R910, R912: a shift register after the background pipeline's dot. -/
def nextShift (q : Ppu) (r : BitVec 16) (b : Byte) : BitVec 16 :=
  if bgWorksAt 0 q then loadLow (r <<< 1) b else if bgWorks q then r <<< 1 else r

/-- R902 step 3: all that the background pipeline does, field by field. -/
theorem bgPipeline_eq (m : Mirroring) (q : Ppu) :
    bgPipeline m q =
      { q with
        ntByte := if bgWorksAt 1 q then ppuRead m (ntAddr q.v) q else q.ntByte
        atBits := if bgWorksAt 3 q then atSelect (ppuRead m (atAddr q.v) q) q.v else q.atBits
        ptLo := if bgWorksAt 5 q then ppuRead m (bgPatAddr q.ctrl q.ntByte q.v) q else q.ptLo
        ptHi := if bgWorksAt 7 q then ppuRead m (bgPatAddr q.ctrl q.ntByte q.v + 8) q else q.ptHi
        bgLo := nextShift q q.bgLo q.ptLo
        bgHi := nextShift q q.bgHi q.ptHi
        bgAt0 := nextShift q q.bgAt0 (broadcast (q.atBits.getLsbD 0))
        bgAt1 := nextShift q q.bgAt1 (broadcast (q.atBits.getLsbD 1))
        v := nextV q } := by
  have hworks := bgWorks_eq q
  unfold bgPipeline nextShift nextV bgWorksAt
  cases hgate : q.bgOn && q.onRenderLine with
  | false =>
    rw [hgate, Bool.false_and] at hworks
    simp [hworks]
  | true =>
    rw [hgate, Bool.true_and] at hworks
    rw [hworks]
    cases q.inBgWindow with
    | false => simp [bgScroll_eq]
    | true =>
      simp only [Bool.true_and, decide_eq_true_eq, if_true, bgFetch_eq, Bool.not_true, Bool.and_false, Bool.false_eq_true, if_false]
      rfl

/-! ## The parts of a dot -/

/-- What the background pipeline writes, and the two flags of `$2002`, taken from `r`. -/
def withBackground (r q : Ppu) : Ppu :=
  { q with
    v := r.v, bgLo := r.bgLo, bgHi := r.bgHi, bgAt0 := r.bgAt0, bgAt1 := r.bgAt1, ntByte := r.ntByte, atBits := r.atBits
    ptLo := r.ptLo, ptHi := r.ptHi, vblank := r.vblank, s0hit := r.s0hit }

/-- What the sprite pipeline writes, taken from `r`. -/
def withSprites (r q : Ppu) : Ppu :=
  { q with
    spr := r.spr, fetch := r.fetch, oam2 := r.oam2, oam2Count := r.oam2Count, s0Next := r.s0Next, s0Cur := r.s0Cur }

/-- The background pipeline does not see the flags. -/
theorem bgPipeline_flags (m : Mirroring) (vb hit : Bool) (q : Ppu) :
    bgPipeline m { q with vblank := vb, s0hit := hit } =
      withBackground { bgPipeline m q with vblank := vb, s0hit := hit } q := by
  rw [bgPipeline_eq, bgPipeline_eq]
  rfl

theorem sprEvaluate_withBackground (r q : Ppu) : sprEvaluate (withBackground r q) = withBackground r (sprEvaluate q) := by
  have heval (n : Nat) : evalSprite n (withBackground r q) = withBackground r (evalSprite n q) := by
    unfold evalSprite
    rw [apply_ite (withBackground r)]
    rfl
  unfold sprEvaluate
  rw [apply_ite (withBackground r), apply_ite (withBackground r), heval]
  rfl

theorem sprFetch_withBackground (m : Mirroring) (r q : Ppu) :
    sprFetch m (s0Transfer (withBackground r q)) = withBackground r (sprFetch m (s0Transfer q)) := by
  have htransfer : s0Transfer (withBackground r q) = withBackground r (s0Transfer q) := by
    unfold s0Transfer
    rw [apply_ite (withBackground r)]
    rfl
  rw [htransfer]
  generalize s0Transfer q = q
  have hdot : (withBackground r q).dot = q.dot := rfl
  unfold sprFetch
  rw [hdot]
  split <;> rfl

/-- The sprite pipeline does not see what the background pipeline writes, nor the flags. -/
theorem sprPipeline_withBackground (m : Mirroring) (r q : Ppu) :
    sprPipeline m (withBackground r q) = withBackground r (sprPipeline m q) := by
  have hfetch (e : Ppu) : (if (withBackground r e).dotIn 257 320 then sprFetch m (s0Transfer (withBackground r e)) else withBackground r e) =
      withBackground r (if e.dotIn 257 320 then sprFetch m (s0Transfer e) else e) := by
    rw [sprFetch_withBackground, apply_ite (withBackground r)]
    rfl
  unfold sprPipeline
  dsimp only
  rw [sprEvaluate_withBackground, hfetch]
  generalize (if (sprEvaluate q).dotIn 257 320 then sprFetch m (s0Transfer (sprEvaluate q)) else sprEvaluate q) = e
  rw [apply_ite (withBackground r), apply_ite (withBackground r)]
  rfl

theorem sprPipeline_eq (m : Mirroring) (q : Ppu) : sprPipeline m q = withSprites (sprPipeline m q) q := by
  obtain ⟨o, c, zn, zc, l, f, h, -, -⟩ := sprPipeline_frame m q
  rw [h]
  rfl

/-- The position advances by itself (R901). -/
theorem advance_withParts (cfg : Config) (b r q : Ppu) :
    advance cfg (withBackground b (withSprites r q)) = withBackground b (withSprites r (advance cfg q)) := by
  unfold advance
  rw [apply_ite (withSprites r), apply_ite (withSprites r), apply_ite (withSprites r),
    apply_ite (withBackground b), apply_ite (withBackground b), apply_ite (withBackground b)]
  rfl

/-- R902: a dot's PPU, part by part: the position, the sprite pipeline and the background pipeline as each does its own dot, and the
flags. -/
theorem ppuDot_ppu (s : State) :
    (ppuDot s).ppu =
      withBackground
        { bgPipeline s.cfg.mirroring s.ppu with
          vblank := (vblankEvents s).ppu.vblank, s0hit := (pixelStep (vblankEvents s)).ppu.s0hit }
        (withSprites (sprPipeline s.cfg.mirroring s.ppu) (advance s.cfg s.ppu)) := by
  obtain ⟨vb, hit, nmi, hevents⟩ := vblankEvents_frame s
  obtain ⟨hit', calls, hpixel⟩ := pixelStep_frame (vblankEvents s)
  have hdot : (ppuDot s).ppu =
      advance s.cfg (sprPipeline s.cfg.mirroring (bgPipeline s.cfg.mirroring { s.ppu with vblank := vb, s0hit := hit' })) := by
    unfold ppuDot
    rw [hpixel, hevents]
    rfl
  rw [hdot, bgPipeline_flags, sprPipeline_withBackground, sprPipeline_eq, advance_withParts, hpixel, hevents]
  rfl

/-! ## The position -/

/-- R901: when a dot is skipped. -/
theorem skipsDot_iff (cfg : Config) (q : Ppu) :
    q.skipsDot cfg = true ↔ q.scanline = 261 ∧ q.dot = 339 ∧ q.frame % 2 = 1 ∧
      (cfg.oddSkipNeedsRendering = false ∨ q.mask.getLsbD 3 = true ∨ q.mask.getLsbD 4 = true) := by
  simp [Ppu.skipsDot, Ppu.bgOn, Ppu.sprOn, regBit, and_assoc, or_assoc]

theorem advance_of_skip {cfg : Config} {q : Ppu} (h : q.skipsDot cfg = true) :
    advance cfg q = { q with scanline := 0, dot := 0, frame := q.frame + 1 } := if_pos h

theorem advance_of_frameEnd {cfg : Config} {q : Ppu} (h : ¬q.skipsDot cfg = true) (hd : q.dot = 340) (hl : q.scanline = 261) :
    advance cfg q = { q with dot := 0, scanline := 0, frame := q.frame + 1 } := (if_neg h).trans ((if_pos hd).trans (if_pos hl))

theorem advance_of_lineEnd {cfg : Config} {q : Ppu} (h : ¬q.skipsDot cfg = true) (hd : q.dot = 340) (hl : q.scanline ≠ 261) :
    advance cfg q = { q with dot := 0, scanline := q.scanline + 1 } := (if_neg h).trans ((if_pos hd).trans (if_neg hl))

theorem advance_of_inner {cfg : Config} {q : Ppu} (h : ¬q.skipsDot cfg = true) (hd : q.dot ≠ 340) :
    advance cfg q = { q with dot := q.dot + 1 } := (if_neg h).trans (if_neg hd)

/-- Settles O51: the four ways a position goes on, the skip only from dot 339 of line 261. -/
theorem positionAdvancesDotByDot : Obligations.PositionAdvancesDotByDot := by
  refine ⟨fun s => ?_, fun cfg q hline hdot => ?_⟩
  · rw [ppuDot_ppu]
    exact ⟨rfl, rfl, rfl⟩
  · rw [← skipsDot_iff]
    intro skip n t
    by_cases hs : q.skipsDot cfg = true
    · have ht : t = _ := advance_of_skip hs
      rw [ht]
      exact ⟨rfl, by simp, by simp, fun _ => ⟨rfl, rfl, rfl⟩, fun h => absurd hs h, fun h => absurd hs h⟩
    · by_cases hd : q.dot = 340
      · by_cases hl : q.scanline = 261
        · have ht : t = _ := advance_of_frameEnd hs hd hl
          rw [ht]
          exact ⟨rfl, by simp, by simp, fun h => absurd h hs, fun _ hn => by omega, fun _ _ => ⟨rfl, rfl, rfl⟩⟩
        · have ht : t = _ := advance_of_lineEnd hs hd hl
          rw [ht]
          exact ⟨rfl, by dsimp only; omega, by simp, fun h => absurd h hs, fun _ _ => ⟨by dsimp only; omega, rfl⟩,
            fun _ hn => by omega⟩
      · have ht : t = _ := advance_of_inner hs hd
        rw [ht]
        exact ⟨rfl, hline, by dsimp only; omega, fun h => absurd h hs, fun _ _ => ⟨by dsimp only; omega, rfl⟩,
          fun _ hn => by omega⟩

/-! ## The flags -/

/-- R960: a dot's vertical-blank flag. -/
theorem ppuDot_vblank (s : State) :
    (ppuDot s).ppu.vblank =
      if s.ppu.scanline = 241 ∧ s.ppu.dot = 1 then true
      else if s.ppu.scanline = 261 ∧ s.ppu.dot = 1 then false else s.ppu.vblank := by
  rw [ppuDot_ppu]
  show (vblankEvents s).ppu.vblank = _
  unfold vblankEvents
  split
  · rfl
  · split <;> rfl

theorem pixelStep_s0hit (s : State) : (pixelStep s).ppu.s0hit = (s.ppu.s0hit || (s.ppu.onPixel && hitsSprite0 s.ppu)) := by
  unfold pixelStep
  split
  next h => simp [h]
  next h => split <;> simp [h]

/-- R950, R960: a dot's sprite-0 flag. -/
theorem ppuDot_s0hit (s : State) :
    (ppuDot s).ppu.s0hit =
      if s.ppu.scanline = 261 ∧ s.ppu.dot = 1 then false else s.ppu.s0hit || (s.ppu.onPixel && hitsSprite0 s.ppu) := by
  rw [ppuDot_ppu]
  show (pixelStep (vblankEvents s)).ppu.s0hit = _
  rw [pixelStep_s0hit]
  unfold vblankEvents
  split
  next h =>
    rw [if_neg (by omega)]
    rfl
  next =>
    split
    next h => simp [vblankEnd, Ppu.onPixel, Ppu.onVisibleLine, h.1]
    next => rfl

/-- R960: the NMI of a dot. -/
theorem ppuDot_nmiLine (s : State) :
    (ppuDot s).nmiLine = if s.ppu.scanline = 241 ∧ s.ppu.dot = 1 then s.nmiLine || s.ppu.ctrl.getLsbD 7 else s.nmiLine := by
  obtain ⟨hit, calls, hpixel⟩ := pixelStep_frame (vblankEvents s)
  have hdot : (ppuDot s).nmiLine = (vblankEvents s).nmiLine := by
    unfold ppuDot
    rw [hpixel]
    rfl
  rw [hdot]
  unfold vblankEvents
  split
  · rfl
  · split <;> rfl

/-- Settles O52: the three flags' equations, at each of the two dots and away from both. -/
theorem verticalBlankStartsAndEnds : Obligations.VerticalBlankStartsAndEnds := by
  intro s
  rw [ppuDot_vblank, ppuDot_s0hit, ppuDot_nmiLine]
  refine ⟨fun hl hd => ?_, fun hl hd => ?_, fun hother => ?_⟩
  · simp [hl, hd, Ppu.onPixel, Ppu.onVisibleLine]
  · simp [hl, hd]
  · have hstart : ¬(s.ppu.scanline = 241 ∧ s.ppu.dot = 1) := fun h => hother ⟨h.2, .inl h.1⟩
    have hend : ¬(s.ppu.scanline = 261 ∧ s.ppu.dot = 1) := fun h => hother ⟨h.2, .inr h.1⟩
    rw [if_neg hstart, if_neg hstart, if_neg hend, if_neg hend]
    exact ⟨rfl, rfl, fun hhit => by rw [hhit, Bool.true_or]⟩

/-! ## The gates -/

/-- R950: a hit needs both pipelines on. -/
theorem hitsSprite0_gates {q : Ppu} (h : hitsSprite0 q = true) : q.bgOn = true ∧ q.sprOn = true := by
  simp only [hitsSprite0, Bool.and_eq_true] at h
  obtain ⟨⟨⟨⟨hbg, hspr⟩, -⟩, -⟩, -⟩ := h
  exact ⟨hbg, hspr⟩

/-- R905, R950: with either off no dot sets the sprite-0 flag. -/
theorem s0hit_of_gate_off {s : State} (hoff : s.ppu.bgOn = false ∨ s.ppu.sprOn = false) (h : (ppuDot s).ppu.s0hit = true) :
    s.ppu.s0hit = true := by
  have hnone : hitsSprite0 s.ppu = false := by
    refine Bool.eq_false_iff.2 fun hhit => ?_
    obtain ⟨hbg, hspr⟩ := hitsSprite0_gates hhit
    simp [hbg, hspr] at hoff
  rw [ppuDot_s0hit, hnone, Bool.and_false, Bool.or_false] at h
  split at h
  · cases h
  · exact h

/-- Settles O54: a pipeline that is off is the identity, and the parts of a dot do not see each other. -/
theorem renderingOffFreezesThePipelines : Obligations.RenderingOffFreezesThePipelines := by
  intro s q t bgOff sprOff
  have hparts := ppuDot_ppu s
  have hbg : bgOff → bgPipeline s.cfg.mirroring s.ppu = s.ppu := bgPipeline_off _ _
  have hspr : sprOff → sprPipeline s.cfg.mirroring s.ppu = s.ppu := sprPipeline_off _ _
  obtain ⟨r, n, calls, hdot, hsame, -⟩ := ppuDot_frame s
  have hr : t = r := congrArg State.ppu hdot
  refine ⟨fun hoff => ?_, fun hoff => ?_, s0hit_of_gate_off, fun hb hs => ?_, ?_, n, calls, hr ▸ hdot⟩
  · rw [hbg hoff] at hparts
    rw [show t = _ from hparts]
    exact ⟨rfl, rfl, rfl, rfl, rfl, rfl, rfl, rfl, rfl⟩
  · rw [hspr hoff] at hparts
    rw [show t = _ from hparts]
    exact ⟨rfl, rfl, rfl, rfl, rfl, rfl⟩
  · obtain ⟨sl, d, f, hadvance, -⟩ := advance_frame s.cfg s.ppu
    rw [hbg hb, hspr hs, hadvance] at hparts
    exact ⟨sl, d, f, _, _, hparts⟩
  · rw [hr]
    exact ⟨hsame.ctrl, hsame.mask, hsame.oamAddr, hsame.t, hsame.fineX, hsame.w, hsame.readBuf, hsame.chr, hsame.ciram, hsame.pal,
      hsame.oam⟩

end Sys2Proof.Machine

/-! The background pipeline (spec/50): the scroll register `v` (O53), and the fetches, the shifts and the pixel (O57). -/

namespace Sys2Proof.Machine

open Sys2Proof.Claims

/-! ## The increments of `v` -/

/-- R913: the horizontal increment, field by field. -/
theorem incX_fields (v : VramReg) :
    (coarseX (incX v)).toNat = ((coarseX v).toNat + 1) % 32 ∧
      (ntSelect (incX v) = if (coarseX v).toNat = 31 then ntSelect v ^^^ 1 else ntSelect v) ∧
      coarseY (incX v) = coarseY v ∧ fineY (incX v) = fineY v := by
  have hlast : coarseX v = 31 ↔ (coarseX v).toNat = 31 := BitVec.toNat_inj.symm
  unfold incX
  simp only [hlast]
  split
  next h => simp [h]
  next => simp [BitVec.toNat_add]

/-- R914: the vertical increment, field by field. -/
theorem incY_fields (v : VramReg) :
    (fineY (incY v)).toNat = ((fineY v).toNat + 1) % 8 ∧ coarseX (incY v) = coarseX v ∧
      ((coarseY (incY v)).toNat =
        if (fineY v).toNat < 7 then (coarseY v).toNat
        else if (coarseY v).toNat = 29 ∨ (coarseY v).toNat = 31 then 0 else (coarseY v).toNat + 1) ∧
      (ntSelect (incY v) =
        if (fineY v).toNat = 7 ∧ (coarseY v).toNat = 29 then ntSelect v ^^^ 2 else ntSelect v) := by
  have hf := (fineY v).isLt
  have hy := (coarseY v).isLt
  have hrow : fineY v < 7 ↔ (fineY v).toNat < 7 := BitVec.lt_def
  have hlast : coarseY v = 29 ↔ (coarseY v).toNat = 29 := BitVec.toNat_inj.symm
  have hwrap : coarseY v = 31 ↔ (coarseY v).toNat = 31 := BitVec.toNat_inj.symm
  unfold incY
  simp only [hrow, hlast, hwrap]
  by_cases h7 : (fineY v).toNat < 7
  · have hne : (fineY v).toNat ≠ 7 := by omega
    simp [h7, hne, BitVec.toNat_add]
  · have heq : (fineY v).toNat = 7 := by omega
    by_cases h29 : (coarseY v).toNat = 29
    · simp [heq, h29]
    · by_cases h31 : (coarseY v).toNat = 31
      · simp [heq, h31]
      · have hsum : ((coarseY v).toNat + 1) % 32 = (coarseY v).toNat + 1 := by omega
        simp [heq, h29, h31, BitVec.toNat_add, hsum]

/-! ## The reloads of `v` -/

/-- A value under a mask lies within it. -/
theorem and_within (t mask : VramReg) : t &&& mask &&& mask = t &&& mask := by rw [BitVec.and_assoc, BitVec.and_self]

/-- R915, R916: a reload bit by bit. -/
theorem getLsbD_reload (old t mask : VramReg) (i : Nat) :
    ((old &&& ~~~mask) ||| (t &&& mask)).getLsbD i = if mask.getLsbD i then t.getLsbD i else old.getLsbD i := by
  rw [getLsbD_merge (and_within t mask), BitVec.getLsbD_and]
  cases mask.getLsbD i <;> simp

/-- R144: a reload takes from `t` the fields its mask covers. -/
theorem field_of_reload {old t mask : VramReg} {start len : Nat} (h : ∀ i < len, mask.getLsbD (start + i) = true) :
    ((old &&& ~~~mask) ||| (t &&& mask)).extractLsb' start len = t.extractLsb' start len := by
  refine BitVec.eq_of_getLsbD_eq fun i hi => ?_
  rw [BitVec.getLsbD_extractLsb', BitVec.getLsbD_extractLsb', getLsbD_reload, if_pos (h i hi)]

/-- R144: one bit of the nametable field. -/
theorem getLsbD_ntSelect (v : VramReg) {i : Nat} (hi : i < 2) : (ntSelect v).getLsbD i = v.getLsbD (10 + i) := by
  rw [ntSelect, BitVec.getLsbD_extractLsb', decide_eq_true hi, Bool.true_and]

/-- R144: the nametable field after a reload, bit by bit. -/
theorem ntSelect_of_reload (old t mask : VramReg) {i : Nat} (hi : i < 2) :
    (ntSelect ((old &&& ~~~mask) ||| (t &&& mask))).getLsbD i =
      if mask.getLsbD (10 + i) then (ntSelect t).getLsbD i else (ntSelect old).getLsbD i := by
  rw [getLsbD_ntSelect _ hi, getLsbD_ntSelect _ hi, getLsbD_ntSelect _ hi, getLsbD_reload]

/-- R915: the horizontal reload, field by field. -/
theorem reloadX_fields (v t : VramReg) :
    coarseX (reloadX v t) = coarseX t ∧ coarseY (reloadX v t) = coarseY v ∧ fineY (reloadX v t) = fineY v ∧
      (ntSelect (reloadX v t)).getLsbD 0 = (ntSelect t).getLsbD 0 ∧ (ntSelect (reloadX v t)).getLsbD 1 = (ntSelect v).getLsbD 1 :=
  ⟨field_of_reload (by decide), field_of_merge_spared (and_within t _) (by decide),
    field_of_merge_spared (and_within t _) (by decide), ntSelect_of_reload v t _ (by decide), ntSelect_of_reload v t _ (by decide)⟩

/-- R916: the vertical reload, field by field. -/
theorem reloadY_fields (v t : VramReg) :
    coarseX (reloadY v t) = coarseX v ∧ coarseY (reloadY v t) = coarseY t ∧ fineY (reloadY v t) = fineY t ∧
      (ntSelect (reloadY v t)).getLsbD 0 = (ntSelect v).getLsbD 0 ∧ (ntSelect (reloadY v t)).getLsbD 1 = (ntSelect t).getLsbD 1 :=
  ⟨field_of_merge_spared (and_within t _) (by decide), field_of_reload (by decide), field_of_reload (by decide),
    ntSelect_of_reload v t _ (by decide), ntSelect_of_reload v t _ (by decide)⟩

/-! ## The dots at which `v` moves -/

theorem ppuDot_v (s : State) : (ppuDot s).ppu.v = nextV s.ppu := by
  rw [ppuDot_ppu, bgPipeline_eq]
  rfl

/-- R905, R910: the gate and the rendering lines. -/
theorem bgGate_iff (q : Ppu) :
    (q.bgOn && q.onRenderLine) = true ↔ q.mask.getLsbD 3 = true ∧ (q.scanline ≤ 239 ∨ q.scanline = 261) := by
  simp [Ppu.bgOn, regBit, Ppu.onRenderLine, Ppu.onVisibleLine]

theorem bgWorks_iff (q : Ppu) :
    bgWorks q = true ↔ (q.mask.getLsbD 3 = true ∧ (q.scanline ≤ 239 ∨ q.scanline = 261)) ∧
      ((1 ≤ q.dot ∧ q.dot ≤ 256) ∨ (321 ≤ q.dot ∧ q.dot ≤ 336)) := by
  simp [bgWorks, and_assoc]

theorem bgWorksAt_iff (k : Nat) (q : Ppu) : bgWorksAt k q = true ↔ bgWorks q = true ∧ q.dot % 8 = k := by simp [bgWorksAt]

/-- R910, R913, R914: `v` at an eighth dot of the fetch windows. -/
theorem nextV_of_eighth {q : Ppu} (h : bgWorksAt 0 q = true) :
    nextV q = if q.dot = 256 then incY (incX q.v) else incX q.v := if_pos h

/-- R915, R916: `v` outside the fetch windows. -/
theorem nextV_of_outside {q : Ppu} (hgate : (q.bgOn && q.onRenderLine) = true) (h : bgWorks q = false) : nextV q = scrolledV q := by
  simp [nextV, bgWorksAt, hgate, h]

/-- R910: `v` at the other dots of the fetch windows. -/
theorem nextV_of_window {q : Ppu} (h : bgWorks q = true) (h0 : q.dot % 8 ≠ 0) : nextV q = q.v := by
  simp [nextV, bgWorksAt, h, h0]

/-- R905: `v` with the background off, or off the rendering lines. -/
theorem nextV_of_gate {q : Ppu} (hgate : (q.bgOn && q.onRenderLine) = false) : nextV q = q.v := by
  have hworks : bgWorks q = false := by rw [bgWorks_eq, hgate, Bool.false_and]
  simp [nextV, bgWorksAt, hgate, hworks]

theorem scrolledV_of_dot257 {q : Ppu} (h : q.dot = 257) : scrolledV q = reloadX q.v q.t := if_pos h

theorem scrolledV_of_vertical {q : Ppu} (h : q.scanline = 261 ∧ 280 ≤ q.dot ∧ q.dot ≤ 304) : scrolledV q = reloadY q.v q.t :=
  (if_neg (by omega)).trans (if_pos h)

theorem scrolledV_of_other {q : Ppu} (h : q.dot ≠ 257) (h' : ¬(q.scanline = 261 ∧ 280 ≤ q.dot ∧ q.dot ≤ 304)) :
    scrolledV q = q.v := (if_neg h).trans (if_neg h')

/-- Settles O53: the fields by the cases of each increment and by each reload's mask; the dots by the windows. -/
theorem scrollIncrementsWrapFieldByField : Obligations.ScrollIncrementsWrapFieldByField := by
  refine ⟨fun v => ⟨incX_fields v, incY_fields v⟩, fun v t => ⟨reloadX_fields v t, reloadY_fields v t⟩, fun s => ?_⟩
  intro q after on eighth vertical
  have hafter : after = nextV q := ppuDot_v s
  have hon : on → (q.bgOn && q.onRenderLine) = true := (bgGate_iff q).2
  have hout : ¬((1 ≤ q.dot ∧ q.dot ≤ 256) ∨ (321 ≤ q.dot ∧ q.dot ≤ 336)) → bgWorks q = false := fun h =>
    Bool.eq_false_iff.2 fun hw => h ((bgWorks_iff q).1 hw).2
  rw [hafter]
  refine ⟨fun ho he => ?_, fun ho hd => ?_, fun ho hv => ?_, fun hnone => ?_⟩
  · exact nextV_of_eighth ((bgWorksAt_iff 0 q).2 ⟨(bgWorks_iff q).2 ⟨ho, he.2⟩, he.1⟩)
  · rw [nextV_of_outside (hon ho) (hout (by omega)), scrolledV_of_dot257 hd]
  · obtain ⟨hl, hlow, hhigh⟩ := hv
    rw [nextV_of_outside (hon ho) (hout (by omega)), scrolledV_of_vertical ⟨hl, hlow, hhigh⟩]
  · by_cases ho : on
    · by_cases hw : bgWorks q = true
      · exact nextV_of_window hw fun h0 => hnone ⟨ho, .inl ⟨h0, ((bgWorks_iff q).1 hw).2⟩⟩
      · rw [nextV_of_outside (hon ho) (Bool.eq_false_iff.2 hw)]
        exact scrolledV_of_other (fun hd => hnone ⟨ho, .inr (.inl hd)⟩) (fun hv => hnone ⟨ho, .inr (.inr hv)⟩)
    · exact nextV_of_gate (Bool.eq_false_iff.2 (mt (bgGate_iff q).1 ho))

/-! ## The fetch addresses in numbers (R911) -/

/-- Two words with no bit in common are combined by adding them. -/
theorem or_eq_add {x y : Word} (h : x &&& y = 0) : x ||| y = x + y := (BitVec.add_eq_or_of_and_eq_zero x y h).symm

theorem vramWord_toNat (v : VramReg) : (vramWord v).toNat = v.toNat := by
  have hv := v.isLt
  rw [vramWord, BitVec.toNat_setWidth]
  omega

/-- R911: the nametable address, by the fields of `v`. -/
theorem ntAddr_eq (v : VramReg) :
    ntAddr v = BitVec.ofNat 16 (0x2000 + 0x400 * (ntSelect v).toNat + 32 * (coarseY v).toNat + (coarseX v).toNat) := by
  have hlow : (vramWord v &&& 0x0FFF).toNat = v.toNat % 2 ^ 12 := by rw [toNat_and_mask _ _ 12 rfl, vramWord_toNat]
  have hdisjoint : (0x2000 : Word) &&& (vramWord v &&& 0x0FFF) = 0 := by
    refine BitVec.eq_of_getLsbD_eq fun i hi => ?_
    interval_cases i <;> simp
  apply BitVec.eq_of_toNat_eq
  rw [ntAddr, or_eq_add hdisjoint, BitVec.toNat_add, hlow, BitVec.toNat_ofNat, ntSelect_toNat, coarseY_toNat, coarseX_toNat]
  have hbase : (0x2000 : Word).toNat = 0x2000 := rfl
  omega

/-- R911: the parts of `atAddr`, by the fields of `v`. -/
theorem atAddr_parts (v : VramReg) :
    vramWord v &&& 0x0C00 = (ntSelect v).setWidth 16 <<< 10 ∧
      (vramWord v >>> 4) &&& 0x38 = (coarseY v >>> 2).setWidth 16 <<< 3 ∧
      (vramWord v >>> 2) &&& (0x07 : Word) = (coarseX v >>> 2).setWidth 16 := by
  refine ⟨?_, ?_, ?_⟩ <;> refine BitVec.eq_of_getLsbD_eq fun i hi => ?_
  · interval_cases i <;> simp [vramWord, ntSelect]
  · interval_cases i <;> simp [vramWord, coarseY]
  · interval_cases i <;> simp [vramWord, coarseX]

/-- R911: `atAddr`, by the fields of `v`. -/
theorem atAddr_eq (v : VramReg) :
    atAddr v =
      BitVec.ofNat 16 (0x23C0 + 0x400 * (ntSelect v).toNat + 8 * ((coarseY v).toNat / 4) + (coarseX v).toNat / 4) := by
  obtain ⟨hnt, hy, hx⟩ := atAddr_parts v
  rw [atAddr, hnt, hy, hx]
  generalize ntSelect v = nt
  generalize coarseY v = cy
  generalize coarseX v = cx
  have h1 : (0x23C0 : Word) &&& (nt.setWidth 16 <<< 10) = 0 := by
    refine BitVec.eq_of_getLsbD_eq fun i hi => ?_
    interval_cases i <;> simp
  have h2 : ((0x23C0 : Word) ||| (nt.setWidth 16 <<< 10)) &&& ((cy >>> 2).setWidth 16 <<< 3) = 0 := by
    refine BitVec.eq_of_getLsbD_eq fun i hi => ?_
    interval_cases i <;> simp
  have h3 : ((0x23C0 : Word) ||| (nt.setWidth 16 <<< 10) ||| ((cy >>> 2).setWidth 16 <<< 3)) &&& (cx >>> 2).setWidth 16 = 0 := by
    refine BitVec.eq_of_getLsbD_eq fun i hi => ?_
    interval_cases i <;> simp
  change (0x23C0 : Word) ||| (nt.setWidth 16 <<< 10) ||| ((cy >>> 2).setWidth 16 <<< 3) ||| (cx >>> 2).setWidth 16 = _
  rw [or_eq_add h3, or_eq_add h2, or_eq_add h1]
  apply BitVec.eq_of_toNat_eq
  simp [BitVec.toNat_add, Nat.shiftRight_eq_div_pow, Nat.shiftLeft_eq]
  omega

/-- R911: how far the byte read at `atAddr` is shifted for a quadrant. -/
theorem atShift_eq (cx cy : BitVec 5) :
    (((cy &&& 2) <<< 1) ||| (cx &&& 2)).toNat = 2 * (2 * (cy.toNat / 2 % 2) + cx.toNat / 2 % 2) := by
  have hy : ∀ c : BitVec 5, ((c &&& 2) <<< 1).toNat = 4 * (c.toNat / 2 % 2) := by decide
  have hx : ∀ c : BitVec 5, (c &&& 2).toNat = 2 * (c.toNat / 2 % 2) := by decide
  have hdisjoint : ((cy &&& 2) <<< 1) &&& (cx &&& 2) = 0 := by
    refine BitVec.eq_of_getLsbD_eq fun i hi => ?_
    interval_cases i <;> simp
  rw [← BitVec.add_eq_or_of_and_eq_zero _ _ hdisjoint, BitVec.toNat_add, hy, hx]
  omega

/-- R911: the two bits of a quadrant of the byte read at `atAddr`. -/
theorem atSelect_eq (b : Byte) (v : VramReg) :
    atSelect b v = BitVec.ofNat 2 (b.toNat / 4 ^ (2 * ((coarseY v).toNat / 2 % 2) + (coarseX v).toNat / 2 % 2)) := by
  rw [atSelect, atShift_eq]
  generalize 2 * ((coarseY v).toNat / 2 % 2) + (coarseX v).toNat / 2 % 2 = quadrant
  apply BitVec.eq_of_toNat_eq
  rw [BitVec.toNat_setWidth, BitVec.toNat_ushiftRight, Nat.shiftRight_eq_div_pow, pow_mul, BitVec.toNat_ofNat]
  rfl

/-- R911: the low pattern address, by the tile and the row. -/
theorem bgPatAddr_eq (ctrl n : Byte) (v : VramReg) :
    bgPatAddr ctrl n v = BitVec.ofNat 16 ((if ctrl.getLsbD 4 then 0x1000 else 0) + 16 * n.toNat + (fineY v).toNat) := by
  apply BitVec.eq_of_toNat_eq
  rw [bgPatAddr, patternHalf, regBit]
  split <;> simp [BitVec.toNat_add, BitVec.toNat_mul] <;> omega

/-! ## The shift registers in numbers (R910, R912) -/

theorem shiftLeft_one_eq (r : BitVec 16) : r <<< 1 = BitVec.ofNat 16 (2 * r.toNat) := by
  apply BitVec.eq_of_toNat_eq
  rw [BitVec.toNat_shiftLeft, BitVec.toNat_ofNat, Nat.shiftLeft_eq, Nat.mul_comm]

theorem loadLow_shiftLeft_eq (r : BitVec 16) (b : Byte) :
    loadLow (r <<< 1) b = BitVec.ofNat 16 (2 * r.toNat / 0x100 * 0x100 + b.toNat) := by
  have hdisjoint : ((r <<< 1) &&& 0xFF00) &&& b.setWidth 16 = 0 := by
    refine BitVec.eq_of_getLsbD_eq fun i hi => ?_
    interval_cases i <;> simp
  apply BitVec.eq_of_toNat_eq
  rw [loadLow, or_eq_add hdisjoint, BitVec.toNat_add, pageOf_toNat, shiftLeft_one_eq, BitVec.toNat_ofNat, BitVec.toNat_ofNat,
    BitVec.toNat_setWidth]
  have hb := b.isLt
  omega

/-- R910, R912: a shift register after a dot. -/
theorem nextShift_eq (q : Ppu) (r : BitVec 16) (b : Byte) :
    nextShift q r b =
      if bgWorksAt 0 q then BitVec.ofNat 16 (2 * r.toNat / 0x100 * 0x100 + b.toNat)
      else if bgWorks q then BitVec.ofNat 16 (2 * r.toNat)
      else r := by
  rw [nextShift, loadLow_shiftLeft_eq, shiftLeft_one_eq]

/-! ## The pixel of a reloaded tile (R920) -/

/-- R912: the low byte of a shift register just loaded. -/
theorem getLsbD_loadLow (r : BitVec 16) (b : Byte) {j : Nat} (hj : j < 8) : (loadLow r b).getLsbD j = b.getLsbD j := by
  rw [loadLow]
  interval_cases j <;> simp

theorem getLsbD_broadcast (on : Bool) {j : Nat} (hj : j < 8) : (broadcast on).getLsbD j = on := by
  rw [broadcast]
  interval_cases j <;> cases on <;> rfl

/-- R910: `n` shifts move the four registers `n` bits, and nothing else. -/
theorem repeat_bgShift (n : Nat) (q : Ppu) :
    Nat.repeat bgShift n q =
      { q with bgLo := q.bgLo <<< n, bgHi := q.bgHi <<< n, bgAt0 := q.bgAt0 <<< n, bgAt1 := q.bgAt1 <<< n } := by
  induction n with
  | zero => simp [Nat.repeat]
  | succ n ih => simp [Nat.repeat, ih, bgShift, BitVec.shiftLeft_add]

/-- R910, R912: what fine X selects of a register `n` shifts after its load. -/
theorem getLsbD_shifted_load (r : BitVec 16) (b : Byte) {n x k : Nat} (hk : k < 8) (hn : n + x = 8 + k) :
    (loadLow r b <<< n).getLsbD (15 - x) = b.getLsbD (7 - k) := by
  have hpos : 15 - x - n = 7 - k := by omega
  have hin : 15 - x < 16 := by omega
  have hmoved : ¬15 - x < n := by omega
  rw [BitVec.getLsbD_shiftLeft, hpos, getLsbD_loadLow r b (by omega)]
  simp [hin, hmoved]

/-- R920: four bits as a number. -/
theorem pixel_of_bits (a b c d : Bool) :
    (BitVec.ofBool a ++ BitVec.ofBool b ++ BitVec.ofBool c ++ BitVec.ofBool d : BitVec (1 + 1 + 1 + 1)) =
      BitVec.ofNat 4 (8 * a.toNat + 4 * b.toNat + 2 * c.toNat + d.toNat) := by
  revert a b c d
  decide

theorem attribute_of_bits (a : BitVec 2) : a.toNat = 2 * (a.getLsbD 1).toNat + (a.getLsbD 0).toNat := by
  revert a
  decide

/-- R920: pixel `k` of a tile just reloaded is shown `8 + k - fine_x` shifts later. -/
theorem bgPixel_of_reloaded {q : Ppu} {k n : Nat} (hon : q.mask.getLsbD 3 = true) (hk : k < 8) (hn : n + q.fineX.toNat = 8 + k) :
    bgPixel (Nat.repeat bgShift n (bgReload q)) =
      BitVec.ofNat 4 (4 * q.atBits.toNat + 2 * (q.ptHi.getLsbD (7 - k)).toNat + (q.ptLo.getLsbD (7 - k)).toNat) := by
  rw [repeat_bgShift]
  refine (if_pos hon).trans ?_
  simp only [bgReload, getLsbD_shifted_load _ _ hk hn, getLsbD_broadcast _ (show 7 - k < 8 by omega)]
  rw [pixel_of_bits, attribute_of_bits]
  congr 1
  omega

/-- Settles O57: the pipeline's fields one by one, with the addresses, the shifts and the loads in numbers. -/
theorem reloadedTileShiftsOutLeftToRight : Obligations.ReloadedTileShiftsOutLeftToRight := by
  refine ⟨fun s => ?_, fun q k n => bgPixel_of_reloaded⟩
  intro q t read table cx cy quadrant pattern moved
  have hparts : t = _ := ppuDot_ppu s
  rw [bgPipeline_eq] at hparts
  have hnt : ppuRead s.cfg.mirroring (ntAddr q.v) q = read (0x2000 + table + 32 * cy + cx) := by rw [ntAddr_eq]
  have hat : atSelect (ppuRead s.cfg.mirroring (atAddr q.v) q) q.v =
      BitVec.ofNat 2 ((read (0x23C0 + table + 8 * (cy / 4) + cx / 4)).toNat / 4 ^ quadrant) := by rw [atSelect_eq, atAddr_eq]
  have hpt : ppuRead s.cfg.mirroring (bgPatAddr q.ctrl q.ntByte q.v) q = read pattern := by rw [bgPatAddr_eq]
  have hpt8 : ppuRead s.cfg.mirroring (bgPatAddr q.ctrl q.ntByte q.v + 8) q = read (pattern + 8) := by
    rw [bgPatAddr_eq]
    exact congrArg (ppuRead _ · q) (BitVec.ofNat_add pattern 8).symm
  have hmoved (r : BitVec 16) (b : Byte) : nextShift q r b = moved r b := nextShift_eq q r b
  rw [hparts, ← hnt, ← hat, ← hpt, ← hpt8]
  simp only [← hmoved]
  exact ⟨rfl, rfl, rfl, rfl, rfl, rfl, rfl, rfl⟩

end Sys2Proof.Machine

/-! The pixel of a dot (spec/50): its sprite-0 hit (O55), its colour and the calls to the display sink (O56). -/

namespace Sys2Proof.Machine

open Sys2Proof.Claims

/-! ## The slots' pixels (R935) -/

theorem slotPattern_toNat (sl : Slot) : (slotPattern sl).toNat = slotBits sl := by
  have hbits (h l : Bool) : (BitVec.ofBool h ++ BitVec.ofBool l : BitVec (1 + 1)).toNat = 2 * h.toNat + l.toNat := by
    revert h l
    decide
  have hmsb (b : Byte) : b.msb.toNat = b.toNat / 128 := by
    have hb := b.isLt
    rw [BitVec.msb_eq_decide]
    by_cases h : 128 ≤ b.toNat <;> simp [h] <;> omega
  rw [slotPattern, hbits, hmsb, hmsb]
  rfl

/-- R935: a slot is opaque when its pattern bits are not both 0. -/
theorem slotPattern_ne_zero (sl : Slot) : (slotPattern sl != 0) = decide (slotBits sl ≠ 0) := by
  rw [← slotPattern_toNat, Bool.eq_iff_iff]
  simp [← BitVec.toNat_inj]

theorem slotPixel_of_opaque {sl : Slot} (i : Nat) (h : opaqueSlot sl) :
    slotPixel i sl = some
      { index := 0x10 ||| ((sl.attr &&& 3).setWidth 5 <<< 2) ||| (slotPattern sl).setWidth 5
        front := !regBit sl.attr 5
        slot := i } := by
  rw [slotPixel, slotPattern_ne_zero, h.1, decide_eq_true h.2]
  rfl

theorem slotPixel_of_not_opaque {sl : Slot} (i : Nat) (h : ¬opaqueSlot sl) : slotPixel i sl = none := by
  rw [slotPixel, slotPattern_ne_zero]
  exact if_neg (by simpa [opaqueSlot] using h)

/-- R935: the first opaque slot gives the pixel. -/
theorem firstPixel_of_opaque {before after : List Slot} {sl : Slot} (hbefore : ∀ o ∈ before, ¬opaqueSlot o) (h : opaqueSlot sl)
    (i : Nat) : firstPixel i (before ++ sl :: after) = slotPixel (i + before.length) sl := by
  induction before generalizing i with
  | nil =>
    rw [List.nil_append, firstPixel, slotPixel_of_opaque i h]
    exact (slotPixel_of_opaque i h).symm
  | cons o before ih =>
    rw [List.cons_append, firstPixel, slotPixel_of_not_opaque i (hbefore o List.mem_cons_self), Option.orElse_none,
      ih (fun o' ho' => hbefore o' (List.mem_cons_of_mem o ho')), List.length_cons, Nat.add_right_comm, Nat.add_assoc]

theorem firstPixel_of_none_opaque {l : List Slot} (h : ∀ o ∈ l, ¬opaqueSlot o) (i : Nat) : firstPixel i l = none := by
  induction l generalizing i with
  | nil => rfl
  | cons o l ih =>
    rw [firstPixel, slotPixel_of_not_opaque i (h o List.mem_cons_self), Option.orElse_none]
    exact ih (fun o' ho' => h o' (List.mem_cons_of_mem o ho')) _

/-- R935: a list of slots has an opaque one, the first of which there is, or none. -/
theorem exists_first_opaque (l : List Slot) :
    (∃ before sl after, l = before ++ sl :: after ∧ (∀ o ∈ before, ¬opaqueSlot o) ∧ opaqueSlot sl) ∨ ∀ o ∈ l, ¬opaqueSlot o := by
  induction l with
  | nil => exact .inr nofun
  | cons sl l ih =>
    by_cases h : opaqueSlot sl
    · exact .inl ⟨[], sl, l, rfl, nofun, h⟩
    · obtain ⟨before, sl', after, rfl, hbefore, h'⟩ | hnone := ih
      · exact .inl ⟨sl :: before, sl', after, rfl, List.forall_mem_cons.2 ⟨h, hbefore⟩, h'⟩
      · exact .inr (List.forall_mem_cons.2 ⟨h, hnone⟩)

/-! ## The sprite-0 hit (R950) -/

theorem bgOpaque_iff (px : BitVec 4) : bgOpaque px = true ↔ px.toNat % 4 ≠ 0 := by
  revert px
  decide

/-- R935: the sprite pixel is slot 0's exactly when slot 0 is opaque. -/
theorem spritePixel_slot_zero {q : Ppu} (hon : q.sprOn = true) :
    (match spritePixel q with | some p => p.slot == 0 | none => false) = true ↔
      ∃ sl rest, q.spr = sl :: rest ∧ opaqueSlot sl := by
  rw [spritePixel, if_pos hon]
  obtain ⟨before, sl, after, hspr, hbefore, h⟩ | hnone := exists_first_opaque q.spr
  · rw [hspr, firstPixel_of_opaque hbefore h, slotPixel_of_opaque _ h]
    cases before with
    | nil => exact iff_of_true rfl ⟨sl, after, rfl, h⟩
    | cons o before =>
      refine iff_of_false (by simp) ?_
      rintro ⟨o', rest, heq, ho'⟩
      obtain ⟨rfl, -⟩ := List.cons.inj heq
      exact hbefore o List.mem_cons_self ho'
  · rw [firstPixel_of_none_opaque hnone]
    refine iff_of_false nofun ?_
    rintro ⟨sl, rest, heq, h⟩
    exact hnone sl (heq ▸ List.mem_cons_self) h

/-- R935: the opaque slots, by the bytes. -/
theorem opaqueSlot_iff (sl : Slot) : opaqueSlot sl ↔ sl.active = true ∧ (128 ≤ sl.lo.toNat ∨ 128 ≤ sl.hi.toNat) := by
  rw [opaqueSlot, slotBits]
  exact and_congr_right fun _ => by omega

/-- R950: when a dot hits sprite 0. -/
theorem hitsSprite0_iff (q : Ppu) :
    hitsSprite0 q = true ↔ q.mask.getLsbD 3 = true ∧ q.mask.getLsbD 4 = true ∧ q.s0Cur = true ∧ (bgPixel q).toNat % 4 ≠ 0 ∧
      ∃ sl rest, q.spr = sl :: rest ∧ sl.active = true ∧ (128 ≤ sl.lo.toNat ∨ 128 ≤ sl.hi.toNat) := by
  simp only [← opaqueSlot_iff, ← bgOpaque_iff]
  rw [hitsSprite0, Bool.and_eq_true, Bool.and_eq_true, Bool.and_eq_true, Bool.and_eq_true]
  constructor
  · rintro ⟨⟨⟨⟨hb, hs⟩, hc⟩, ho⟩, hp⟩
    exact ⟨hb, hs, hc, ho, (spritePixel_slot_zero hs).1 hp⟩
  · rintro ⟨hb, hs, hc, ho, hp⟩
    exact ⟨⟨⟨⟨hb, hs⟩, hc⟩, ho⟩, (spritePixel_slot_zero hs).2 hp⟩

theorem onPixel_iff (q : Ppu) : q.onPixel = true ↔ q.scanline ≤ 239 ∧ 1 ≤ q.dot ∧ q.dot ≤ 256 := by
  simp [Ppu.onPixel, Ppu.onVisibleLine, Ppu.dotIn]

/-- Settles O55: the flag's equation, where no dot of (261, 1) is a visible one. -/
theorem spriteZeroHitNeedsBothPixels : Obligations.SpriteZeroHitNeedsBothPixels := by
  intro s hclear
  rw [ppuDot_s0hit, hclear, Bool.false_or, ← hitsSprite0_iff]
  split
  next h => exact iff_of_false nofun (by omega)
  next => rw [Bool.and_eq_true, onPixel_iff]; tauto

/-! ## The composed pixel (R940) -/

theorem backgroundIndex_eq (q : Ppu) : backgroundIndex q = (bgPixel q).toNat := by
  unfold backgroundIndex bgPixel Ppu.bgOn regBit
  cases q.mask.getLsbD 3 with
  | false => rfl
  | true =>
    simp only [if_true, pixel_of_bits, BitVec.toNat_ofNat]
    refine (Nat.mod_eq_of_lt ?_).symm
    have hle (b : Bool) : b.toNat ≤ 1 := b.toNat_le
    have h1 := hle (q.bgAt1.getLsbD (15 - q.fineX.toNat))
    have h2 := hle (q.bgAt0.getLsbD (15 - q.fineX.toNat))
    have h3 := hle (q.bgHi.getLsbD (15 - q.fineX.toNat))
    have h4 := hle (q.bgLo.getLsbD (15 - q.fineX.toNat))
    omega

/-- R935: the palette index of a slot's pixel. -/
theorem spriteIndex_toNat (attr : Byte) (pattern : BitVec 2) :
    (0x10 ||| ((attr &&& 3).setWidth 5 <<< 2) ||| pattern.setWidth 5 : BitVec 5).toNat = 16 + 4 * (attr.toNat % 4) + pattern.toNat := by
  have hfields : ∀ a p : BitVec 2, (0x10 ||| (a.setWidth 5 <<< 2) ||| p.setWidth 5 : BitVec 5).toNat = 16 + 4 * a.toNat + p.toNat := by
    decide
  have hattr : (attr &&& 3).setWidth 5 = (attr.setWidth 2).setWidth 5 := by
    refine BitVec.eq_of_getLsbD_eq fun i hi => ?_
    interval_cases i <;> simp
  rw [hattr, hfields, BitVec.toNat_setWidth]

/-- R940: the composed index under an opaque slot. -/
theorem compose_slot (bg : BitVec 4) {sl : Slot} (i : Nat) (h : opaqueSlot sl) :
    (compose bg (slotPixel i sl)).toNat =
      if bg.toNat % 4 = 0 ∨ sl.attr.getLsbD 5 = false then 16 + 4 * (sl.attr.toNat % 4) + slotBits sl else bg.toNat := by
  have hwins : (!bgOpaque bg || !regBit sl.attr 5) = true ↔ bg.toNat % 4 = 0 ∨ sl.attr.getLsbD 5 = false := by
    rw [Bool.or_eq_true, Bool.not_eq_true', Bool.not_eq_true', ← Bool.not_eq_true, bgOpaque_iff, not_not]
    rfl
  rw [slotPixel_of_opaque i h, compose]
  by_cases hw : (!bgOpaque bg || !regBit sl.attr 5) = true
  · rw [if_pos hw, if_pos (hwins.1 hw), spriteIndex_toNat, slotPattern_toNat]
  · rw [if_neg hw, if_neg (mt hwins.2 hw), BitVec.toNat_setWidth]
    have hbg := bg.isLt
    omega

/-- R940: the composed index with no sprite pixel. -/
theorem compose_none (bg : BitVec 4) : (compose bg none).toNat = if bg.toNat % 4 = 0 then 0 else bg.toNat := by
  revert bg
  decide

/-- R940: the model's composition is the statement's. -/
theorem composedIs_compose (q : Ppu) : composedIs q (compose (bgPixel q) (spritePixel q)).toNat := by
  unfold composedIs
  rw [backgroundIndex_eq]
  refine ⟨fun before sl after hon hspr hbefore h => ?_, fun hnone => ?_⟩
  · rw [spritePixel, if_pos (show q.sprOn = true from hon), hspr, firstPixel_of_opaque hbefore h, compose_slot _ _ h]
  · have hno : spritePixel q = none := by
      obtain hoff | hnone := hnone
      · exact if_neg (Bool.eq_false_iff.1 hoff)
      · rw [spritePixel, firstPixel_of_none_opaque hnone, ite_self]
    rw [hno, compose_none]

/-- R945: the palette byte of a composed index, the aliases in numbers (R242). -/
theorem paletteByte_eq (q : Ppu) (idx : BitVec 5) :
    paletteByte q idx = q.pal.read (if idx.toNat % 4 = 0 then idx.toNat % 16 else idx.toNat) := by
  have hi := idx.isLt
  have haddr : (0x3F00 + idx.setWidth 16 : Word).toNat = 0x3F00 + idx.toNat := by
    rw [BitVec.toNat_add, BitVec.toNat_setWidth]
    have hbase : (0x3F00 : Word).toNat = 0x3F00 := rfl
    omega
  have h4 : (0x3F00 + idx.toNat) % 4 = idx.toNat % 4 := by omega
  have h16 : (0x3F00 + idx.toNat) % 16 = idx.toNat % 16 := by omega
  have h32 : (0x3F00 + idx.toNat) % 32 = idx.toNat := by omega
  rw [paletteByte, palIndex_eq_mod, haddr, h4, h16, h32]

/-! ## The calls to the sink -/

/-- R946: the call a dot makes while the sink is ready, if any. -/
def sinkCalls (q : Ppu) : List HostCall :=
  if q.onPixel then [.emitPixel (paletteByte q (compose (bgPixel q) (spritePixel q)))]
  else if q.scanline = 240 ∧ q.dot = 0 then [.presentFrame]
  else []

theorem callSink_calls (c : HostCall) (s : State) :
    (s.callSink c).host.calls = s.host.calls ++ if s.host.sinkReady then [c] else [] := by
  rw [State.callSink_host]
  split <;> simp

theorem pixelStep_calls (s : State) :
    (pixelStep s).host.calls = s.host.calls ++ if s.host.sinkReady then sinkCalls s.ppu else [] := by
  unfold pixelStep sinkCalls
  split
  · exact callSink_calls _ s
  · split
    · exact callSink_calls _ s
    · simp

/-- R946, R1131: the calls of a dot. -/
theorem ppuDot_calls (s : State) :
    (ppuDot s).host.calls = s.host.calls ++ if s.host.sinkReady then sinkCalls s.ppu else [] := by
  obtain ⟨vb, hit, nmi, hevents⟩ := vblankEvents_frame s
  refine (pixelStep_calls (vblankEvents s)).trans ?_
  rw [hevents]
  rfl

/-- R1101: a dot step's calls are those of its dot, after the writes due. -/
theorem dotStep_calls (s : State) :
    (dotStep s).host.calls = s.host.calls ++ if s.host.sinkReady then sinkCalls (applyDue s).ppu else [] := by
  have hhost : (applyDue s).host = s.host := by
    obtain ⟨q, n, hdue, -⟩ := applyDue_frame s
    rw [hdue]
  rw [← hhost]
  exact ppuDot_calls (applyDue s)

/-- Settles O56: the one call of a dot, its byte that of the index composed. -/
theorem eachVisibleDotEmitsOnePixel : Obligations.EachVisibleDotEmitsOnePixel := by
  intro s q made visible
  have hmade : made = s.host.calls ++ if s.host.sinkReady then sinkCalls q else [] := dotStep_calls s
  have hvisible : q.onPixel = true ↔ visible := (onPixel_iff q).trans (by simp only [visible]; tauto)
  rw [hmade]
  refine ⟨fun hnone => congrArg State.ppu (applyDue_of_none_due hnone), fun hready => ?_, fun hready => by simp [hready]⟩
  rw [if_pos hready, sinkCalls]
  refine ⟨fun hv => ⟨_, ?_, composedIs_compose q⟩, fun hl hd => ?_, fun hv hother => ?_⟩
  · rw [if_pos (hvisible.2 hv), paletteByte_eq]
  · have hout : ¬q.onPixel = true := fun h => by
      have hline := ((onPixel_iff q).1 h).1
      omega
    rw [if_neg hout, if_pos ⟨hl, hd⟩]
  · rw [if_neg (mt hvisible.1 hv), if_neg hother, List.append_nil]

end Sys2Proof.Machine

/-! The sprite pipeline (spec/50): the fetches and the slots (O58), the evaluation and the sprite-0 latch (O59). -/

namespace Sys2Proof.Machine

open Sys2Proof.Claims

/-! ## The pipeline dot by dot -/

theorem spriteWorks_iff (q : Ppu) : (q.sprOn && q.onRenderLine) = true ↔ spriteWorks q := by
  simp [spriteWorks, Ppu.sprOn, regBit, Ppu.onRenderLine, Ppu.onVisibleLine]

theorem dotIn_iff (q : Ppu) (first last : Nat) : q.dotIn first last = true ↔ first ≤ q.dot ∧ q.dot ≤ last := by
  simp [Ppu.dotIn]

/-- R905: with sprites off, or off the rendering lines, the sprite pipeline does nothing. -/
theorem sprPipeline_of_not_works (m : Mirroring) {q : Ppu} (h : ¬spriteWorks q) : sprPipeline m q = q :=
  if_neg (mt (spriteWorks_iff q).1 h)

/-- R931: past dot 254 nothing is evaluated. -/
theorem sprEvaluate_of_late {q : Ppu} (h : 255 ≤ q.dot) : sprEvaluate q = q := by
  have hclear : ¬q.dot = 1 := by omega
  have heval : ¬(q.onVisibleLine && q.dotIn 65 254 && q.dot % 3 == 2) = true := by
    simp [Ppu.dotIn]
    omega
  exact (if_neg hclear).trans (if_neg heval)

/-- R934: the latch moves on at dot 257 and nothing else does. -/
theorem s0Transfer_eq (q : Ppu) : s0Transfer q = { q with s0Cur := if q.dot = 257 then q.s0Next else q.s0Cur } := by
  unfold s0Transfer
  split <;> rfl

theorem s0Transfer_dot (q : Ppu) : (s0Transfer q).dot = q.dot := by rw [s0Transfer_eq]

/-- R932, R934: the dots of the sprite fetches. -/
theorem sprPipeline_of_fetch (m : Mirroring) {q : Ppu} (h : spriteWorks q) (hlow : 257 ≤ q.dot) (hhigh : q.dot ≤ 320) :
    sprPipeline m q = sprFetch m (s0Transfer q) := by
  obtain ⟨l, f, -, hfetch⟩ := sprFetch_frame m (s0Transfer q)
  have hpixel : ¬(sprFetch m (s0Transfer q)).onPixel = true := by
    rw [hfetch, s0Transfer_eq, onPixel_iff]
    dsimp only
    omega
  rw [sprPipeline, if_pos ((spriteWorks_iff q).2 h), sprEvaluate_of_late (by omega)]
  dsimp only
  rw [if_pos ((dotIn_iff q 257 320).2 ⟨hlow, hhigh⟩), if_neg hpixel]

/-- R931, R933: the other dots evaluate, and shift the slots where there is a pixel. -/
theorem sprPipeline_of_not_fetch (m : Mirroring) {q : Ppu} (h : spriteWorks q) (hout : ¬(257 ≤ q.dot ∧ q.dot ≤ 320)) :
    sprPipeline m q = if q.onPixel then sprShift (sprEvaluate q) else sprEvaluate q := by
  obtain ⟨o, c, z, heval⟩ := sprEvaluate_frame q
  rw [sprPipeline, if_pos ((spriteWorks_iff q).2 h)]
  dsimp only
  have hdot : ¬(sprEvaluate q).dotIn 257 320 = true := by
    rw [heval, dotIn_iff]
    exact hout
  have hpixel : (sprEvaluate q).onPixel = q.onPixel := by
    rw [heval]
    rfl
  rw [if_neg hdot, hpixel]

/-! ## The fetches (R932) -/

theorem sprFetch_load (m : Mirroring) {q : Ppu} {i : Nat} (h : q.dot = 257 + 8 * i) : sprFetch m q = sprLoad i q := by
  have hmod : (q.dot - 257) % 8 = 0 := by omega
  have hdiv : (q.dot - 257) / 8 = i := by omega
  unfold sprFetch
  rw [hmod, hdiv]
  rfl

theorem sprFetch_low (m : Mirroring) {q : Ppu} {i : Nat} (h : q.dot = 261 + 8 * i) : sprFetch m q = sprFetchLo m i q := by
  have hmod : (q.dot - 257) % 8 = 4 := by omega
  have hdiv : (q.dot - 257) / 8 = i := by omega
  unfold sprFetch
  rw [hmod, hdiv]
  rfl

theorem sprFetch_high (m : Mirroring) {q : Ppu} {i : Nat} (h : q.dot = 263 + 8 * i) : sprFetch m q = sprFetchHi m i q := by
  have hmod : (q.dot - 257) % 8 = 6 := by omega
  have hdiv : (q.dot - 257) / 8 = i := by omega
  unfold sprFetch
  rw [hmod, hdiv]
  rfl

theorem sprFetch_arm (m : Mirroring) {q : Ppu} {i : Nat} (h : q.dot = 264 + 8 * i) : sprFetch m q = sprArm i q := by
  have hmod : (q.dot - 257) % 8 = 7 := by omega
  have hdiv : (q.dot - 257) / 8 = i := by omega
  unfold sprFetch
  rw [hmod, hdiv]
  rfl

/-- R932: the fetch dots of a slot at which nothing is done. -/
theorem sprFetch_idle (m : Mirroring) {q : Ppu} (hdots : 257 ≤ q.dot ∧ q.dot ≤ 320)
    (h : ∀ i < 8, q.dot ≠ 257 + 8 * i ∧ q.dot ≠ 261 + 8 * i ∧ q.dot ≠ 263 + 8 * i ∧ q.dot ≠ 264 + 8 * i) : sprFetch m q = q := by
  have hslot := h ((q.dot - 257) / 8) (by omega)
  unfold sprFetch
  dsimp only
  split
  next hk => omega
  next hk => omega
  next hk => omega
  next hk => omega
  next => rfl

/-- R932: the address of a sprite row, in numbers (log 11). -/
theorem sprPatAddr_eq (ctrl : Byte) (line : Nat) (f : SpriteFetch) :
    sprPatAddr ctrl line f =
      BitVec.ofInt 16 ((if ctrl.getLsbD 3 then 0x1000 else 0) + 16 * (f.tile.toNat : Int) +
        if f.attr.getLsbD 7 then 7 - ((line : Int) - (f.sy.toNat : Int)) else (line : Int) - (f.sy.toNat : Int)) := by
  rw [sprPatAddr, patternHalf, regBit, regBit, mul_comm]
  cases ctrl.getLsbD 3 <;> rfl

/-- R932: the flip, bit by bit. -/
theorem getLsbD_flipped (attr b : Byte) {k : Nat} (hk : k < 8) :
    (flipped attr b).getLsbD k = b.getLsbD (if attr.getLsbD 6 then 7 - k else k) := by
  rw [flipped, regBit]
  cases attr.getLsbD 6 with
  | false => rfl
  | true =>
    rw [if_pos rfl, if_pos rfl, reverse8, BitVec.getLsbD_reverse, BitVec.getMsbD, decide_eq_true hk, Bool.true_and]

theorem byte_beq_zero (b : Byte) : (b == 0) = decide (b.toNat = 0) := by
  rw [Bool.beq_eq_decide_eq, decide_eq_decide, ← BitVec.toNat_inj]
  rfl

/-! ## The slots (R933) -/

/-- R933: a slot that is shown moves its planes one bit on. -/
theorem slotTick_of_active {sl : Slot} (h : sl.active = true) :
    slotTick sl = { sl with lo := sl.lo <<< 1, hi := sl.hi <<< 1 } := if_pos h

/-- R933: an idle slot counts down, and is shown from the dot at which its counter gets to 0. -/
theorem slotTick_of_idle {sl : Slot} (h : sl.active = false) :
    slotTick sl = { sl with xcnt := sl.xcnt - 1, active := decide (sl.xcnt.toNat = 1) } := by
  have hone : (sl.xcnt - 1 == 0) = decide (sl.xcnt.toNat = 1) := by
    rw [Bool.beq_eq_decide_eq, decide_eq_decide]
    bv_omega
  rw [slotTick, if_neg (by simp [h]), hone]

/-- R933: an armed slot, `n` dots on, while it counts down. -/
theorem repeat_slotTick_countdown {sl : Slot} (h : sl.active = (sl.xcnt == 0)) {n : Nat} (hn : n ≤ sl.xcnt.toNat) :
    Nat.repeat slotTick n sl = { sl with xcnt := sl.xcnt - BitVec.ofNat 8 n, active := decide (n = sl.xcnt.toNat) } := by
  have hx := sl.xcnt.isLt
  induction n with
  | zero =>
    have hactive : decide (0 = sl.xcnt.toNat) = sl.active := by rw [h, byte_beq_zero, decide_eq_decide, eq_comm]
    rw [hactive, BitVec.sub_zero]
    rfl
  | succ n ih =>
    have hidle : decide (n = sl.xcnt.toNat) = false := decide_eq_false (by omega)
    have hcount : sl.xcnt - BitVec.ofNat 8 n - 1 = sl.xcnt - BitVec.ofNat 8 (n + 1) := by bv_omega
    have hlast : (sl.xcnt - BitVec.ofNat 8 n).toNat = 1 ↔ n + 1 = sl.xcnt.toNat := by
      rw [BitVec.toNat_sub, BitVec.toNat_ofNat]
      omega
    rw [Nat.repeat, ih (by omega), hidle, slotTick_of_idle rfl]
    dsimp only
    rw [hcount, decide_eq_decide.2 hlast]

/-- R933: an armed slot, `k` dots after its column. -/
theorem repeat_slotTick_shown {sl : Slot} (h : sl.active = (sl.xcnt == 0)) (k : Nat) :
    Nat.repeat slotTick (sl.xcnt.toNat + k) sl = { sl with xcnt := 0, active := true, lo := sl.lo <<< k, hi := sl.hi <<< k } := by
  induction k with
  | zero =>
    have hcount : sl.xcnt - BitVec.ofNat 8 sl.xcnt.toNat = 0 := by rw [BitVec.ofNat_toNat, BitVec.setWidth_eq, BitVec.sub_self]; rfl
    rw [Nat.add_zero, repeat_slotTick_countdown h le_rfl, hcount, decide_eq_true rfl, BitVec.shiftLeft_zero, BitVec.shiftLeft_zero]
  | succ k ih => rw [← Nat.add_assoc, Nat.repeat, ih, slotTick_of_active rfl, BitVec.shiftLeft_add, BitVec.shiftLeft_add]

/-- R935: bit 7 of a plane shifted `k` times. -/
theorem msb_shiftLeft (b : Byte) (k : Nat) : (b <<< k).msb = (decide (k < 8) && b.getLsbD (7 - k)) := by
  rw [BitVec.msb_eq_getLsbD_last, BitVec.getLsbD_shiftLeft]
  by_cases hk : k < 8
  · simp [hk, Nat.le_of_lt_succ hk]
  · simp [hk, Nat.lt_of_succ_le (Nat.le_of_not_lt hk)]

/-- R935: the pattern of a slot whose planes have been shifted `k` times. -/
theorem slotPattern_shifted (sl : Slot) {k : Nat} (hk : k < 8) :
    slotPattern { sl with xcnt := 0, active := true, lo := sl.lo <<< k, hi := sl.hi <<< k } =
      BitVec.ofNat 2 (2 * (sl.hi.getLsbD (7 - k)).toNat + (sl.lo.getLsbD (7 - k)).toNat) := by
  rw [slotPattern, msb_shiftLeft, msb_shiftLeft, decide_eq_true hk, Bool.true_and, Bool.true_and]
  cases sl.hi.getLsbD (7 - k) <;> cases sl.lo.getLsbD (7 - k) <;> rfl

/-- R935: past its eight pixels a slot shows nothing. -/
theorem slotPattern_shifted_out (sl : Slot) {k : Nat} (hk : 8 ≤ k) :
    slotPattern { sl with xcnt := 0, active := true, lo := sl.lo <<< k, hi := sl.hi <<< k } = 0 := by
  rw [slotPattern, msb_shiftLeft, msb_shiftLeft, decide_eq_false (Nat.not_lt.2 hk), Bool.false_and, Bool.false_and]
  rfl

/-! ## A dot of the sprite pipeline -/

theorem ppuDot_fetch (s : State) : (ppuDot s).ppu.fetch = (sprPipeline s.cfg.mirroring s.ppu).fetch := by
  rw [ppuDot_ppu]
  rfl

theorem ppuDot_spr (s : State) : (ppuDot s).ppu.spr = (sprPipeline s.cfg.mirroring s.ppu).spr := by
  rw [ppuDot_ppu]
  rfl

/-- R933: a visible dot of a visible line, in the slots. -/
theorem sprPipeline_of_pixel (m : Mirroring) {q : Ppu} (h : spriteWorks q) (hp : q.onPixel = true) :
    (sprPipeline m q).fetch = q.fetch ∧ (sprPipeline m q).spr = q.spr.map slotTick := by
  obtain ⟨hl, hlow, hhigh⟩ := (onPixel_iff q).1 hp
  obtain ⟨o, c, z, heval⟩ := sprEvaluate_frame q
  rw [sprPipeline_of_not_fetch m h (by omega), if_pos hp, heval]
  exact ⟨rfl, rfl⟩

/-- R932, R933: the dots of the pipeline that change neither the held bytes nor the slots. -/
theorem sprPipeline_idle (m : Mirroring) {q : Ppu} (h : spriteWorks q) (hp : ¬q.onPixel = true)
    (hidle : ∀ i < 8, q.dot ≠ 257 + 8 * i ∧ q.dot ≠ 261 + 8 * i ∧ q.dot ≠ 263 + 8 * i ∧ q.dot ≠ 264 + 8 * i) :
    (sprPipeline m q).fetch = q.fetch ∧ (sprPipeline m q).spr = q.spr := by
  by_cases hdots : 257 ≤ q.dot ∧ q.dot ≤ 320
  · have hfetch : sprFetch m (s0Transfer q) = s0Transfer q :=
      sprFetch_idle m (by rwa [s0Transfer_dot]) (by rwa [s0Transfer_dot])
    rw [sprPipeline_of_fetch m h hdots.1 hdots.2, hfetch, s0Transfer_eq]
    exact ⟨rfl, rfl⟩
  · obtain ⟨o, c, z, heval⟩ := sprEvaluate_frame q
    rw [sprPipeline_of_not_fetch m h hdots, if_neg hp, heval]
    exact ⟨rfl, rfl⟩

/-- R932: the address of the high plane. -/
theorem sprPatAddr_high (ctrl : Byte) (line : Nat) (f : SpriteFetch) {low : Int} (h : sprPatAddr ctrl line f = BitVec.ofInt 16 low) :
    sprPatAddr ctrl line f + 8 = BitVec.ofInt 16 (low + 8) := by
  rw [h, BitVec.ofInt_add]
  rfl

/-- Settles O58: the dots by the pipeline's cases, the slots by counting down and then shifting. -/
theorem armedSlotShowsEightPixelsFromItsColumn : Obligations.ArmedSlotShowsEightPixelsFromItsColumn := by
  refine ⟨fun s => ?_, fun sl n harmed => ?_⟩
  · intro q t f row shown low plane turned
    have hfetch : t.fetch = (sprPipeline s.cfg.mirroring q).fetch := ppuDot_fetch s
    have hspr : t.spr = (sprPipeline s.cfg.mirroring q).spr := ppuDot_spr s
    have hlow : sprPatAddr q.ctrl q.scanline f = BitVec.ofInt 16 low := sprPatAddr_eq q.ctrl q.scanline f
    have hhigh : sprPatAddr q.ctrl q.scanline f + 8 = BitVec.ofInt 16 (low + 8) := sprPatAddr_high _ _ _ hlow
    rw [hfetch, hspr]
    refine ⟨fun i hi hw => ⟨fun hd => ?_, fun hd => ?_, fun hd => ?_, fun hd => ?_⟩, fun hw hl h1 h256 => ?_, fun hidle => ?_⟩
    · rw [sprPipeline_of_fetch _ hw (by omega) (by omega), sprFetch_load _ ((s0Transfer_dot q).trans hd), s0Transfer_eq]
      exact ⟨rfl, rfl⟩
    · rw [sprPipeline_of_fetch _ hw (by omega) (by omega), sprFetch_low _ ((s0Transfer_dot q).trans hd), s0Transfer_eq, sprFetchLo]
      dsimp only
      rw [hlow]
      exact ⟨rfl, rfl⟩
    · rw [sprPipeline_of_fetch _ hw (by omega) (by omega), sprFetch_high _ ((s0Transfer_dot q).trans hd), s0Transfer_eq, sprFetchHi]
      dsimp only
      rw [hhigh]
      exact ⟨rfl, rfl⟩
    · rw [sprPipeline_of_fetch _ hw (by omega) (by omega), sprFetch_arm _ ((s0Transfer_dot q).trans hd), s0Transfer_eq, ← byte_beq_zero]
      exact ⟨_, _, fun k => getLsbD_flipped f.attr f.lo, fun k => getLsbD_flipped f.attr f.hi, rfl, rfl⟩
    · obtain ⟨hf, hs⟩ := sprPipeline_of_pixel s.cfg.mirroring hw ((onPixel_iff q).2 ⟨hl, h1, h256⟩)
      refine ⟨hf, hs.trans (List.map_congr_left fun sl _ => ?_)⟩
      split
      next hactive => exact slotTick_of_active hactive
      next hactive => exact slotTick_of_idle (Bool.eq_false_iff.2 hactive)
    · by_cases hw : spriteWorks q
      · by_cases hp : q.onPixel = true
        · exact ⟨(sprPipeline_of_pixel _ hw hp).1, fun h => absurd ⟨hw, (onPixel_iff q).1 hp⟩ h⟩
        · obtain ⟨hf, hs⟩ := sprPipeline_idle s.cfg.mirroring hw hp (hidle.resolve_right (not_not_intro hw))
          exact ⟨hf, fun _ => hs⟩
      · rw [sprPipeline_of_not_works _ hw]
        exact ⟨rfl, fun _ => rfl⟩
  · intro t x
    refine ⟨fun hn => ?_, fun k hk hn => ?_, fun hn => ?_⟩
    · have ht : t = _ := repeat_slotTick_countdown harmed (Nat.le_of_lt hn)
      rw [ht]
      exact decide_eq_false (Nat.ne_of_lt hn)
    · subst hn
      have ht : t = _ := repeat_slotTick_shown harmed k
      rw [ht]
      exact ⟨rfl, slotPattern_shifted sl hk⟩
    · obtain ⟨k, rfl⟩ := Nat.exists_eq_add_of_le (le_trans (Nat.le_add_right x 8) hn)
      have ht : t = _ := repeat_slotTick_shown harmed k
      rw [ht]
      exact slotPattern_shifted_out sl (by omega)

end Sys2Proof.Machine

/-! Sprite evaluation (spec/50): secondary OAM, its count and the sprite-0 latch (O59). -/

namespace Sys2Proof.Machine

open Sys2Proof.Claims

/-! ## The dots of clearing and evaluation -/

/-- R931: whether a dot evaluates a sprite, and which. -/
theorem evalDot_iff (q : Ppu) (n : Nat) :
    ((q.onVisibleLine && q.dotIn 65 254 && q.dot % 3 == 2) = true ∧ (q.dot - 65) / 3 = n) ↔
      q.scanline ≤ 239 ∧ n < 64 ∧ q.dot = 65 + 3 * n := by
  simp only [Ppu.onVisibleLine, Ppu.dotIn, Bool.and_eq_true, decide_eq_true_eq, beq_iff_eq]
  omega

theorem sprEvaluate_clear {q : Ppu} (h : q.dot = 1) : sprEvaluate q = clearOam2 q := if_pos h

theorem sprEvaluate_sprite {q : Ppu} {n : Nat} (h : q.scanline ≤ 239 ∧ n < 64 ∧ q.dot = 65 + 3 * n) :
    sprEvaluate q = evalSprite n q := by
  obtain ⟨hdot, hn⟩ := (evalDot_iff q n).2 h
  rw [sprEvaluate, if_neg (by omega), if_pos hdot, hn]

theorem sprEvaluate_none {q : Ppu} (hclear : q.dot ≠ 1) (h : ∀ n, ¬(q.scanline ≤ 239 ∧ n < 64 ∧ q.dot = 65 + 3 * n)) :
    sprEvaluate q = q :=
  (if_neg hclear).trans (if_neg fun hdot => h _ ((evalDot_iff q _).1 ⟨hdot, rfl⟩))

/-- R902, R931: what a dot of the working pipeline leaves in secondary OAM and beside it. -/
theorem sprPipeline_evaluation (m : Mirroring) {q : Ppu} (h : spriteWorks q) :
    (sprPipeline m q).oam2 = (sprEvaluate q).oam2 ∧ (sprPipeline m q).oam2Count = (sprEvaluate q).oam2Count ∧
      (sprPipeline m q).s0Next = (sprEvaluate q).s0Next ∧
      (sprPipeline m q).s0Cur = if q.dot = 257 then q.s0Next else q.s0Cur := by
  by_cases hdots : 257 ≤ q.dot ∧ q.dot ≤ 320
  · obtain ⟨l, f, -, hfetch⟩ := sprFetch_frame m (s0Transfer q)
    rw [sprPipeline_of_fetch m h hdots.1 hdots.2, hfetch, s0Transfer_eq, sprEvaluate_of_late (by omega)]
    exact ⟨rfl, rfl, rfl, rfl⟩
  · obtain ⟨o, c, z, heval⟩ := sprEvaluate_frame q
    rw [sprPipeline_of_not_fetch m h hdots, if_neg (show ¬q.dot = 257 by omega)]
    split
    · exact ⟨rfl, rfl, rfl, by rw [heval]; rfl⟩
    · exact ⟨rfl, rfl, rfl, by rw [heval]⟩

theorem ppuDot_oam2 (s : State) :
    (ppuDot s).ppu.oam2 = (sprPipeline s.cfg.mirroring s.ppu).oam2 ∧
      (ppuDot s).ppu.oam2Count = (sprPipeline s.cfg.mirroring s.ppu).oam2Count ∧
      (ppuDot s).ppu.s0Next = (sprPipeline s.cfg.mirroring s.ppu).s0Next ∧
      (ppuDot s).ppu.s0Cur = (sprPipeline s.cfg.mirroring s.ppu).s0Cur := by
  rw [ppuDot_ppu]
  exact ⟨rfl, rfl, rfl, rfl⟩

/-! ## Clearing and one sprite -/

/-- R931: what clearing leaves in secondary OAM. -/
theorem clearOam2_read (q : Ppu) {k : Nat} (hk : k < 32) : (clearOam2 q).oam2.read k = 0xFF := by
  rw [clearOam2, Memory.read_writeBytes _ _ _ _ rfl, List.length_replicate, if_pos ⟨Nat.zero_le k, by rwa [Nat.zero_add]⟩,
    List.getD_eq_getElem _ _ (by rwa [List.length_replicate]), List.getElem_replicate]

/-- R930: a sprite in range, in numbers. -/
theorem inRange_eq (line : Nat) (y : Byte) : inRange line y = (decide (y.toNat ≤ line) && decide (line < y.toNat + 8)) := by
  unfold inRange
  by_cases h : y.toNat ≤ line
  · rw [decide_eq_true h, Bool.true_and, Bool.true_and, decide_eq_decide]
    omega
  · rw [decide_eq_false h, Bool.false_and, Bool.false_and]

/-- R161: the four bytes of an entry of primary OAM. -/
def oamEntry (oam : Memory) (n : Nat) : List Byte := (List.range 4).map fun j => oam.read (4 * n + j)

theorem oamEntry_length (oam : Memory) (n : Nat) : (oamEntry oam n).length = 4 := rfl

theorem oamEntry_getD (oam : Memory) (n : Nat) {j : Nat} (hj : j < 4) (d : Byte) : (oamEntry oam n).getD j d = oam.read (4 * n + j) := by
  rw [oamEntry, List.getD_eq_getElem _ _ (by simpa using hj), List.getElem_map, List.getElem_range]

/-- R931: an entry in range, with room for it, is copied. -/
theorem evalSprite_of_taken {n : Nat} {q : Ppu} (h : inRange q.scanline (oamByte q n 0) = true) (hc : q.oam2Count < 8) :
    evalSprite n q =
      { q with
        oam2 := q.oam2.writeBytes (4 * q.oam2Count) (oamEntry q.oam n)
        oam2Count := q.oam2Count + 1
        s0Next := q.s0Next || n == 0 } := by
  rw [evalSprite, h, decide_eq_true hc]
  rfl

/-- R931: an entry out of range, or with no room for it, is left. -/
theorem evalSprite_of_left {n : Nat} {q : Ppu} (h : inRange q.scanline (oamByte q n 0) = true → ¬q.oam2Count < 8) :
    evalSprite n q = q := by
  refine if_neg fun hboth => ?_
  rw [Bool.and_eq_true, decide_eq_true_eq] at hboth
  exact h hboth.1 hboth.2

/-! ## The whole evaluation -/

/-- R930: sprite `n` is in range. -/
def hits (q : Ppu) (n : Nat) : Bool := inRange q.scanline (oamByte q n 0)

/-- R931: the sprites kept of the first `n`, in OAM order. -/
def keptOf (q : Ppu) (n : Nat) : List Nat := ((List.range n).filter (hits q)).take 8

/-- R931: a secondary OAM that holds the entries `ns` and `$FF` after them. -/
structure Holds (oam o : Memory) (ns : List Nat) : Prop where
  wf : o.wf = true
  entries : ∀ j k, j < ns.length → k < 4 → o.read (4 * j + k) = oam.read (4 * ns.getD j 0 + k)
  rest : ∀ k, 4 * ns.length ≤ k → k < 32 → o.read k = 0xFF

theorem Memory.wf_writeBytes (bs : List Byte) : ∀ {m : Memory} (a : Nat), m.wf = true → (m.writeBytes a bs).wf = true := by
  induction bs with
  | nil => exact fun _ h => h
  | cons b bs ih => exact fun a h => ih (a + 1) (Memory.wf_write a b h)

theorem holds_clear (oam : Memory) (q : Ppu) : Holds oam (clearOam2 q).oam2 [] where
  wf := ((Memory.ok_iff _ _).1 (clearOam2_ok q)).1
  entries _ _ hj := absurd hj (Nat.not_lt_zero _)
  rest _ _ hk := clearOam2_read q hk

/-- R931: one more entry is put after the others. -/
theorem Holds.append {oam o : Memory} {ns : List Nat} (h : Holds oam o ns) (n : Nat) :
    Holds oam (o.writeBytes (4 * ns.length) (oamEntry oam n)) (ns ++ [n]) where
  wf := Memory.wf_writeBytes _ _ h.wf
  entries j k hj hk := by
    rw [List.length_append, List.length_singleton] at hj
    rw [Memory.read_writeBytes _ _ _ _ h.wf, oamEntry_length]
    by_cases hlast : j = ns.length
    · subst hlast
      rw [if_pos (by omega), Nat.add_sub_cancel_left, oamEntry_getD _ _ hk, List.getD_append_right _ _ _ _ le_rfl, Nat.sub_self]
      rfl
    · have hold : j < ns.length := by omega
      rw [if_neg (by omega), h.entries j k hold hk, List.getD_append _ _ _ _ hold]
  rest k hlow hhigh := by
    rw [List.length_append, List.length_singleton] at hlow
    rw [Memory.read_writeBytes _ _ _ _ h.wf, oamEntry_length, if_neg (by omega), h.rest k (by omega) hhigh]

/-- R931: sprite `n` is kept when it is in range and there is room. -/
theorem keptOf_succ (q : Ppu) (n : Nat) :
    keptOf q (n + 1) = if hits q n = true ∧ (keptOf q n).length < 8 then keptOf q n ++ [n] else keptOf q n := by
  have hlen : (keptOf q n).length = min 8 ((List.range n).filter (hits q)).length := List.length_take
  have hsplit : keptOf q (n + 1) = ((List.range n).filter (hits q) ++ [n].filter (hits q)).take 8 := by
    rw [keptOf, List.range_succ, List.filter_append]
  rw [hsplit, hlen, List.take_append]
  by_cases hn : hits q n = true
  · by_cases hroom : ((List.range n).filter (hits q)).length < 8
    · have hfits : [n].length ≤ 8 - ((List.range n).filter (hits q)).length := by
        rw [List.length_singleton]
        omega
      rw [if_pos ⟨hn, by omega⟩, List.filter_cons_of_pos hn, List.filter_nil, List.take_of_length_le hfits]
      rfl
    · rw [if_neg (by omega), Nat.sub_eq_zero_of_le (by omega), List.take_zero, List.append_nil]
      rfl
  · rw [if_neg (by simp [hn]), List.filter_cons_of_neg hn, List.filter_nil, List.take_nil, List.append_nil]
    rfl

/-- R931: the PPU once the first `n` sprites are evaluated, with `o` in secondary OAM. -/
def evaluated (q : Ppu) (o : Memory) (n : Nat) : Ppu :=
  { q with oam2 := o, oam2Count := (keptOf q n).length, s0Next := decide (0 < n) && hits q 0 }

/-- R931: the sprite-0 latch is set by sprite 0 alone, for which there is always room. -/
theorem s0Next_succ (q : Ppu) (n : Nat) :
    (decide (0 < n + 1) && hits q 0) =
      if hits q n = true ∧ (keptOf q n).length < 8 then (decide (0 < n) && hits q 0) || n == 0 else decide (0 < n) && hits q 0 := by
  cases n with
  | zero => cases h : hits q 0 <;> rfl
  | succ n => simp

/-- R931: the examination of one more sprite. -/
theorem evalSprite_evaluated {q : Ppu} {o : Memory} {n : Nat} (h : Holds q.oam o (keptOf q n)) :
    ∃ o', Holds q.oam o' (keptOf q (n + 1)) ∧ evalSprite n (evaluated q o n) = evaluated q o' (n + 1) := by
  unfold evaluated
  rw [s0Next_succ, keptOf_succ]
  by_cases htaken : hits q n = true ∧ (keptOf q n).length < 8
  · rw [if_pos htaken, if_pos htaken]
    refine ⟨_, h.append n, (evalSprite_of_taken (q := evaluated q o n) htaken.1 htaken.2).trans ?_⟩
    rw [List.length_append]
    rfl
  · rw [if_neg htaken, if_neg htaken]
    exact ⟨o, h, evalSprite_of_left (q := evaluated q o n) fun hn hroom => htaken ⟨hn, hroom⟩⟩

/-- R931: the first `n` sprites evaluated from a cleared secondary OAM. -/
theorem foldl_evalSprite (q : Ppu) (n : Nat) :
    ∃ o, Holds q.oam o (keptOf q n) ∧ (List.range n).foldl (fun p i => evalSprite i p) (clearOam2 q) = evaluated q o n := by
  induction n with
  | zero => exact ⟨_, holds_clear q.oam q, rfl⟩
  | succ n ih =>
    obtain ⟨o, ho, hfold⟩ := ih
    rw [List.range_succ, List.foldl_append, hfold]
    exact evalSprite_evaluated ho

/-- Settles O59: the dots by the pipeline's cases, the evaluation by induction on the sprites examined. -/
theorem evaluationKeepsTheFirstEightInRange : Obligations.EvaluationKeepsTheFirstEightInRange := by
  refine ⟨fun s => ?_, fun q _ => ?_⟩
  · intro q t clears evaluates
    obtain ⟨hoam2, hcount, hnext, hcur⟩ : t.oam2 = _ ∧ t.oam2Count = _ ∧ t.s0Next = _ ∧ t.s0Cur = _ := ppuDot_oam2 s
    rw [hoam2, hcount, hnext, hcur]
    by_cases hw : spriteWorks q
    · obtain ⟨heOam2, heCount, heNext, heCur⟩ := sprPipeline_evaluation s.cfg.mirroring hw
      rw [heOam2, heCount, heNext, heCur]
      refine ⟨fun hc => ?_, fun n he => ?_, fun n he => ?_, fun hc he => ?_, fun _ hd => if_pos hd, fun hd => ?_⟩
      · rw [sprEvaluate_clear hc.2]
        exact ⟨fun k hk => clearOam2_read q hk, rfl, rfl, rfl⟩
      · intro y entry
        have hrange : hits q n = true ↔ y ≤ q.scanline ∧ q.scanline < y + 8 := by
          rw [hits, inRange_eq, Bool.and_eq_true, decide_eq_true_eq, decide_eq_true_eq]
          rfl
        rw [sprEvaluate_sprite he.2]
        split
        next htaken =>
          rw [evalSprite_of_taken (hrange.2 ⟨htaken.1, htaken.2.1⟩) htaken.2.2]
          exact ⟨rfl, rfl, rfl⟩
        next hleft =>
          rw [evalSprite_of_left fun h hc => hleft ⟨(hrange.1 h).1, (hrange.1 h).2, hc⟩]
          exact ⟨rfl, rfl, rfl⟩
      · rw [sprEvaluate_sprite he.2]
        exact ⟨rfl, rfl, rfl⟩
      · rw [sprEvaluate_none (fun hd => hc ⟨hw, hd⟩) fun n hn => he n ⟨hw, hn⟩]
        exact ⟨rfl, rfl, rfl⟩
      · exact if_neg fun h => hd ⟨hw, h⟩
    · rw [sprPipeline_of_not_works _ hw]
      exact ⟨fun hc => absurd hc.1 hw, fun n he => absurd he.1 hw, fun n he => absurd he.1 hw, fun _ _ => ⟨rfl, rfl, rfl⟩,
        fun h => absurd h hw, fun _ => rfl⟩
  · intro e hit kept
    have hhit : hit = hits q := funext fun n => (inRange_eq q.scanline (oamByte q n 0)).symm
    have hkept : kept = keptOf q 64 := by rw [keptOf, ← hhit]
    obtain ⟨o, ⟨-, hentries, hrest⟩, hfold⟩ := foldl_evalSprite q 64
    have he : e = _ := hfold
    rw [he, hkept, hhit]
    exact ⟨rfl, rfl, rfl, hentries, hrest⟩

end Sys2Proof.Machine
